-- ==== Sys2Proof/Word.lean ====
section
/-! DEFINITION. The word types of tinyrand CORE: state words and outputs (R21), command words and operands (R60),
sequence elements (R41). -/

namespace Sys2Proof

/-- A generator state word, a table entry, an output: 32 bits (R21, R26, R27). -/
abbrev Word := BitVec 32

/-- A command word CW (R60, R61). -/
abbrev CmdWord := BitVec 32

/-- An operand ARG (R60, R62). -/
abbrev Arg := BitVec 64

/-- One element of the sequence: an opaque pattern of ELEM_W bits that the block moves and never inspects (R41).
It is held as the number those bits write; that it is below 2^ELEM_W is an invariant of the state
(DESIGN CHOICE, safe, entry 9: ELEM_W is an open parameter, so the type does not fix it). -/
abbrev Elem := Nat

/-- A command as the host presents it: a command word and an operand, together (R60). -/
structure Command where
  cw  : CmdWord
  arg : Arg
deriving DecidableEq, Repr

end Sys2Proof
end

