-- ==== Sys2Proof/Syntax.lean ====
section
/-! DEFINITION. The commands of the block, one constructor per row of the opcode map (R64). -/

namespace Sys2Proof

/-- A command, decoded. `ver` and `sel` are the imm8 field exactly as it stands (R61); `arg` is the operand of the three
commands that read it (R62), the others ignore theirs and keep none. -/
inductive Instr where
  /-- Does nothing (R168). -/
  | nop
  /-- Creates the instance: version identifier and signed seed (R160). -/
  | construct (ver : BitVec 8) (arg : Arg)
  /-- Re-seeds the instance from a signed seed (R80). -/
  | seed (arg : Arg)
  /-- One raw output (R86). -/
  | nextRaw
  /-- One public output (R113). -/
  | get
  /-- Permutes the first `arg` elements of SEQ (R130). -/
  | shuffle (arg : Arg)
  /-- Reads a constant of the instance or the status word (R167). -/
  | rdcfg (sel : BitVec 8)
deriving DecidableEq, Repr

end Sys2Proof
end

