-- ==== Sys2Proof/WellFormed.lean ====
section
/-! DEFINITION. Which commands have an encoding: all of them, but for an RDCFG whose selector is above 5 (R67, R69 (d)).
A CONSTRUCT with any imm8 is a legal command word (R69, last sentence). -/

namespace Sys2Proof

/-- The command has a legal command word. -/
def Instr.wf : Instr → Bool
  | .nop => true
  | .construct _ _ => true
  | .seed _ => true
  | .nextRaw => true
  | .get => true
  | .shuffle _ => true
  | .rdcfg sel => decide (sel.toNat ≤ 5)

end Sys2Proof
end

