-- ==== Sys2Proof/Decode.lean ====
section
/-! DEFINITION. From a command word and operand to a command, and back (R61, R62, R64, R69, R74), the rows of the opcode
map as data, and the assembler's lines and pseudo-instructions (R72, R73). -/

namespace Sys2Proof

/-! ## Fields of the command word (R61) -/

/-- `CW[7:0]`, the opcode. -/
def opField (cw : CmdWord) : BitVec 8 := cw.extractLsb' 0 8
/-- `CW[15:8]`, the immediate. -/
def immField (cw : CmdWord) : BitVec 8 := cw.extractLsb' 8 8
/-- `CW[31:16]`, reserved. -/
def rsvField (cw : CmdWord) : BitVec 16 := cw.extractLsb' 16 16

/-! ## The decoder -/

/-- Why a command word is illegal: the four tests of R69, in its order. -/
inductive DecodeError where
  /-- (a) `CW[31:16] != 0`. -/
  | reservedBits
  /-- (b) `CW[7:0] > 0x06`. -/
  | unknownOpcode
  /-- (c) an immediate on a command that has none. -/
  | immNotZero
  /-- (d) an RDCFG selector above 5. -/
  | badSelector
deriving DecidableEq, Repr

/-- A command without an immediate: its imm8 must be 0 (R69 (c)). -/
def noImm (cw : CmdWord) (i : Instr) : Except DecodeError Instr :=
  if immField cw = 0 then .ok i else .error .immNotZero

/-- The decode procedure of R74: R69's tests, then the row of R64 that `CW[7:0]` selects. Total: every word is a command
or illegal (R70). -/
def decode (c : Command) : Except DecodeError Instr :=
  if rsvField c.cw ≠ 0 then .error .reservedBits
  else match (opField c.cw).toNat with
    | 0 => noImm c.cw .nop
    | 1 => .ok (.construct (immField c.cw) c.arg)
    | 2 => noImm c.cw (.seed c.arg)
    | 3 => noImm c.cw .nextRaw
    | 4 => noImm c.cw .get
    | 5 => noImm c.cw (.shuffle c.arg)
    | 6 => if (immField c.cw).toNat ≤ 5 then .ok (.rdcfg (immField c.cw)) else .error .badSelector
    | _ => .error .unknownOpcode

/-- The command whose bits, laid out as the opcode table numbers them, are the low `nbits` bits of `w`: the command word
is bits 31:0, the operand bits 95:32. -/
def commandOfBits (nbits w : Nat) : Command :=
  ⟨BitVec.ofNat 32 (w % 2 ^ nbits), BitVec.ofNat 64 (w % 2 ^ nbits / 2 ^ 32)⟩

/-- The instruction the decoder reads from a table row's bits. -/
def decodeTableWord (nbits w : Nat) : Option Instr :=
  match decode (commandOfBits nbits w) with
  | .ok i => some i
  | .error _ => none

/-! ## The encoder -/

/-- A command word from its opcode and immediate, reserved bits zero (R61). -/
def cmdWord (op imm : BitVec 8) : CmdWord := (0#16 ++ imm) ++ op

/-- The command of an instruction (R64, R72); `ARG = 0` where the command ignores it. -/
def encode : Instr → Command
  | .nop => ⟨cmdWord 0x00 0, 0⟩
  | .construct ver arg => ⟨cmdWord 0x01 ver, arg⟩
  | .seed arg => ⟨cmdWord 0x02 0, arg⟩
  | .nextRaw => ⟨cmdWord 0x03 0, 0⟩
  | .get => ⟨cmdWord 0x04 0, 0⟩
  | .shuffle arg => ⟨cmdWord 0x05 0, arg⟩
  | .rdcfg sel => ⟨cmdWord 0x06 sel, 0⟩

/-! ## The opcode map as rows (R64) -/

/-- The match and mask of an instruction's row in R64: a word `w` selects the row when `w & mask = match`. -/
structure OpRow where
  pattern : CmdWord
  mask    : CmdWord
deriving DecidableEq, Repr

/-- The row of an instruction. -/
def opRow : Instr → OpRow
  | .nop => ⟨0x00000000, 0xFFFFFFFF⟩
  | .construct _ _ => ⟨0x00000001, 0xFFFF00FF⟩
  | .seed _ => ⟨0x00000002, 0xFFFFFFFF⟩
  | .nextRaw => ⟨0x00000003, 0xFFFFFFFF⟩
  | .get => ⟨0x00000004, 0xFFFFFFFF⟩
  | .shuffle _ => ⟨0x00000005, 0xFFFFFFFF⟩
  | .rdcfg _ => ⟨0x00000006, 0xFFFF00FF⟩

/-- The seven rows of R64, in the table's order. -/
def opRows : List OpRow :=
  [⟨0x00000000, 0xFFFFFFFF⟩, ⟨0x00000001, 0xFFFF00FF⟩, ⟨0x00000002, 0xFFFFFFFF⟩, ⟨0x00000003, 0xFFFFFFFF⟩,
   ⟨0x00000004, 0xFFFFFFFF⟩, ⟨0x00000005, 0xFFFFFFFF⟩, ⟨0x00000006, 0xFFFF00FF⟩]

/-- The word selects the row. -/
def OpRow.selects (row : OpRow) (w : CmdWord) : Bool := w &&& row.mask == row.pattern

/-! ## Assembler lines (R72, R73)

The lines are given as data; how they are spelt in characters is text the host's assembler reads and the block never
sees (entry 18). -/

/-- VER_DEFAULT, the version an assembler uses when none is written (R7, R66, R73). -/
def verDefault : BitVec 8 := 0x1A

/-- The version names of R66 that R72 accepts in place of a number, with their identifiers. -/
def versionNames : List (String × BitVec 8) :=
  [("LCG16", 0x00), ("LCG26", 0x04), ("LCG32", 0x08), ("XS32", 0x09), ("XS128", 0x0A),
   ("LCG16_BD", 0x10), ("LCG26_BD", 0x14), ("LCG32_BD", 0x18), ("XS32_BD", 0x19), ("XS128_BD", 0x1A)]

/-- The selector names that R72 accepts in place of a number (R67). -/
def selectorNames : List (String × BitVec 8) :=
  [("VERSION", 0), ("BITS", 1), ("NSTATES", 2), ("MASK", 3), ("BD_BITS", 4), ("STATUS", 5)]

/-- An assembler line: the seven of R72, with the two shorter forms of CONSTRUCT of R73. -/
inductive AsmLine where
  | nop
  | construct (ver : BitVec 8) (seed : Int)
  | constructVer (ver : BitVec 8)
  | constructDefault
  | seed (seed : Int)
  | nextRaw
  | get
  | shuffle (n : Nat)
  | rdcfg (sel : BitVec 8)
deriving DecidableEq, Repr

/-- `seed mod 2^64`, the two's complement of a negative seed (R72). -/
def seedArg (x : Int) : Arg := BitVec.ofInt 64 x

/-- The operands R72 allows on the line: seeds in `-2^63 .. 2^63 - 1`, lengths in `0 .. 2^64 - 1`. A selector is a number
`0 .. 255`, so every imm8 may be written. -/
def AsmLine.ok : AsmLine → Bool
  | .construct _ x => decide (-2 ^ 63 ≤ x ∧ x < 2 ^ 63)
  | .seed x => decide (-2 ^ 63 ≤ x ∧ x < 2 ^ 63)
  | .shuffle n => decide (n < 2 ^ 64)
  | .nop => true
  | .constructVer _ => true
  | .constructDefault => true
  | .nextRaw => true
  | .get => true
  | .rdcfg _ => true

/-- What the line encodes as (R72), the pseudo-instructions by their expansions (R73). -/
def assemble : AsmLine → Command
  | .nop => encode .nop
  | .construct ver x => encode (.construct ver (seedArg x))
  | .constructVer ver => encode (.construct ver (seedArg 0))
  | .constructDefault => encode (.construct verDefault (seedArg 0))
  | .seed x => encode (.seed (seedArg x))
  | .nextRaw => encode .nextRaw
  | .get => encode .get
  | .shuffle n => encode (.shuffle (BitVec.ofNat 64 n))
  | .rdcfg sel => encode (.rdcfg sel)

end Sys2Proof
end

