-- ==== Sys2Proof/Machine/Constants.lean ====
section
/-! DEFINITION. The parameters whose values the spec gives (R7). -/

namespace Sys2Proof.Machine

/-- LCG32_A (R7, R89). -/
def lcg32A : Nat := 121525
/-- LCG32_C (R7, R89). -/
def lcg32C : Nat := 386076519
/-- XS32_FALLBACK, the state that replaces zero (R7, R93). -/
def xs32Fallback : Word := 1
/-- XS128_SHIFT: the left shift of the oldest word (R7, R94). -/
def xs128ShiftA : Nat := 11
/-- XS128_SHIFT: the right shift of the newest word (R7, R94). -/
def xs128ShiftB : Nat := 19
/-- XS128_SHIFT: the right shift of the mixed word (R7, R94). -/
def xs128ShiftC : Nat := 8
/-- XS128_WARMUP, the outputs discarded after seeding (R7, R85). -/
def xs128Warmup : Nat := 6

end Sys2Proof.Machine
end

