-- ==== Sys2Proof/Config.lean ====
section
/-! DEFINITION. The parameters an implementation fixes when the hardware is built (R7, R31) and that no command
changes. The open ones are constants without a body: nothing can evaluate them, so what is proved of the machine
after reset holds for every admissible build. -/

namespace Sys2Proof

/-- The three shift amounts of xorshift32: left a, right b, left c (R91). -/
structure Xs32Shift where
  a : Nat
  b : Nat
  c : Nat
deriving DecidableEq, Repr

/-- The open and named parameters of the block (R7, the closing table of 92_eei_decisions.md). -/
structure Config where
  /-- LCG16_A, open (R89). -/
  lcg16A : BitVec 16
  /-- LCG16_C, open (R89). -/
  lcg16C : BitVec 16
  /-- LCG26_A, open (R89). -/
  lcg26A : BitVec 26
  /-- LCG26_C, open (R89). -/
  lcg26C : BitVec 26
  /-- XS32_SHIFT, a named parameter with a default (R7, R91). -/
  xs32Shift : Xs32Shift
  /-- BD_BITS, log2 of the table size, open (R7, R111). -/
  bdBits : Nat
  /-- ELEM_W, the width of one sequence element, open (R7, R41). -/
  elemW : Nat
deriving DecidableEq, Repr

/-! The open parameters of the build, as free constants over exactly the admissible values: `A mod 4 = 1` fixes the
two low bits of a multiplier, `C` odd the low bit of an increment (DESIGN CHOICE for the form, safe, entry 7). -/

/-- Bits 15:2 of LCG16_A. -/
opaque Config.lcg16AHigh : BitVec 14
/-- Bits 15:1 of LCG16_C. -/
opaque Config.lcg16CHigh : BitVec 15
/-- Bits 25:2 of LCG26_A. -/
opaque Config.lcg26AHigh : BitVec 24
/-- Bits 25:1 of LCG26_C. -/
opaque Config.lcg26CHigh : BitVec 25
/-- BD_BITS of the build. -/
opaque Config.buildBdBits : Fin 17
/-- ELEM_W of the build, less 1. -/
opaque Config.buildElemW : Nat

/-- The default of XS32_SHIFT and the value this hardware takes (R7, R91; the spec's own note says it comes from
general knowledge: PRESUMED, unsafe, entry 8). -/
def Config.xs32Default : Xs32Shift := ⟨13, 17, 5⟩

/-- The configuration the hardware comes out of reset with. -/
def Config.build : Config where
  lcg16A := Config.lcg16AHigh ++ 1#2
  lcg16C := Config.lcg16CHigh ++ 1#1
  lcg26A := Config.lcg26AHigh ++ 1#2
  lcg26C := Config.lcg26CHigh ++ 1#1
  xs32Shift := Config.xs32Default
  bdBits := Config.buildBdBits.val
  elemW := Config.buildElemW + 1

end Sys2Proof
end

