-- ==== Sys2Proof/Machine/State.lean ====
section
/-! DEFINITION. The state of the block and of what it is connected to (R20), the reasons a step can stop, and the state
right after reset (R33, R201). -/

namespace Sys2Proof.Machine

/-- Why the machine stops. -/
inductive Fault where
  /-- Raised by a meaning, or by a draw of the SHUFFLE controller, that would read a register which holds no value:
  CONFIGURED is 1 and VER holds no supported identifier, or a draw is due and there is no instance (R24, R25;
  93_implementation_defined.md U1: "If a model nevertheless reads one, fault"). Safe: no run reaches such a state,
  and the machine stops in it. -/
  | valuelessRead
deriving DecidableEq, Repr

/-- Why the machine has no meaning for an instruction. -/
inductive Refusal where
  /-- Raised by exec alone, for an instruction without a meaning in this model. Safe: the machine stops. No arm of exec
  raises it now. -/
  | notModelled (mnemonic : String)
deriving DecidableEq, Repr

/-- The outcome codes of a response (R68); the codes 6 to 15 are never produced (U13). -/
inductive Status where
  | ok
  | invalidSeed
  | unsupportedVersion
  | sequenceTooLong
  | illegalCommand
  | notConstructed
deriving DecidableEq, Repr

/-- A response (R60, R63). -/
structure Response where
  status : Status
  rdata  : BitVec 64
deriving DecidableEq, Repr

/-- The phases of the SHUFFLE controller (R142) in which BUSY is 1: the action the block takes next. CHECK is the
acceptance of the command (execShuffle) and IDLE is BUSY = 0. -/
inductive Phase where
  | loop
  | width
  | draw
  | test
  | rdR
  | rdJ
  | wrJ
  | wrR
deriving DecidableEq, Repr

/-- What the host, or the one asynchronous input, does (R13, R200). -/
inductive HostMove where
  /-- Does nothing for one step: the block holds its state (R196) or its controller goes on. -/
  | wait
  /-- Presents a command; held off while BUSY = 1 (R205). -/
  | command (c : Command)
  /-- Stores an element into SEQ; the host has no such move while BUSY = 1 (R50, R206), so it is held off. -/
  | store (i : BitVec 32) (x : Elem)
  /-- Asserts and releases reset, at any time, during a command too (R200, R202). -/
  | reset
deriving DecidableEq, Repr

/-- The sequence memory, element-addressed (R41): the elements that differ from what an unlisted index reads as, by
strictly rising index. -/
abbrev Memory := List (Nat × Elem)

/-- The state: R20's tuple, the memory space SEQ (R41), the two ports (R60) and the build's parameters (R7, R31). -/
structure State where
  /-- The parameters of the build; no step changes them (R31; DESIGN CHOICE for standing here, safe, entry 7). -/
  config : Config
  /-- CONFIGURED (R25). -/
  configured : Bool
  /-- VER, in the layout of R65 (R24). -/
  ver : BitVec 8
  /-- S[0] (R21). -/
  s0 : Word
  /-- S[1] (R21). -/
  s1 : Word
  /-- S[2] (R21). -/
  s2 : Word
  /-- S[3] (R21). -/
  s3 : Word
  /-- TAB, entry 0 first, `2^BD_BITS` entries (R26). -/
  tab : List Word
  /-- CUR (R27). -/
  cur : Word
  /-- N, the length of the SHUFFLE in progress (R28). -/
  n : BitVec 33
  /-- J, the position being extended (R28, R34). -/
  j : BitVec 33
  /-- B, the width needed to cover J (R28, R133). -/
  b : BitVec 6
  /-- HI, the value of J at which B next grows (R28, R133). -/
  hi : BitVec 33
  /-- R, the draw of the current step (R28, R134). -/
  r : Word
  /-- T0, the element read at R (R28, R136). -/
  t0 : Elem
  /-- T1, the element read at J (R28, R136). -/
  t1 : Elem
  /-- BUSY (R29). -/
  busy : Bool
  /-- PHASE, the model's own field: what the controller does next while BUSY is 1 (R142). -/
  phase : Phase
  /-- SEQ, the host's memory (R40, R41). -/
  seq : Memory
  /-- The model's own field: the moves the host is still to make, the next one first (entry 2). -/
  host : List HostMove
  /-- The model's own field: the responses issued so far, the newest first (entry 11). -/
  responses : List Response
deriving DecidableEq, Repr

/-- The state right after reset (R33, R201): CONFIGURED and BUSY 0, no command in progress, no response pending, no default
generator. Every other register is unspecified in the spec and is named zero here (DESIGN CHOICE, unsafe, entry 4); SEQ is
the host's and starts with every element zero (DESIGN CHOICE, unsafe, entry 5). -/
def State.reset : State where
  config := Config.build
  configured := false
  ver := 0
  s0 := 0
  s1 := 0
  s2 := 0
  s3 := 0
  tab := List.replicate (2 ^ Config.build.bdBits) 0
  cur := 0
  n := 0
  j := 0
  b := 0
  hi := 0
  r := 0
  t0 := 0
  t1 := 0
  busy := false
  phase := .loop
  seq := []
  host := []
  responses := []

end Sys2Proof.Machine
end

