-- ==== Sys2Proof/Machine/Operands.lean ====
section
/-! DEFINITION. How the block reads its operands: the version identifier and its constants (R8, R65, R66), the seed
(R62, R81, R82), the length (R62), the table index (R111), the draw (R134), and the LCG constants a version takes (R89). -/

namespace Sys2Proof.Machine

/-! ## The version identifier (R65, R66) -/

/-- The raw algorithm with its width: the five combinations the supported set has (R66). -/
inductive RawAlg where
  | lcg16
  | lcg26
  | lcg32
  | xs32
  | xs128
deriving DecidableEq, Repr

/-- A supported version: a raw algorithm, wrapped by the decorrelation stage or not (R66). -/
structure Version where
  raw     : RawAlg
  wrapped : Bool
deriving DecidableEq, Repr

/-- `ver[1:0]`, ALG (R65). -/
def algField (ver : BitVec 8) : BitVec 2 := ver.extractLsb' 0 2
/-- `ver[3:2]`, WSEL (R65). -/
def wselField (ver : BitVec 8) : BitVec 2 := ver.extractLsb' 2 2
/-- `ver[4]`, BD (R65). -/
def bdField (ver : BitVec 8) : Bool := ver.getLsbD 4
/-- `ver[7:5]`, which must be 0 (R65). -/
def zeroField (ver : BitVec 8) : BitVec 3 := ver.extractLsb' 5 3

/-- The raw algorithm that ALG and WSEL select, where the pair is supported (R66). -/
def rawAlgOf (alg wsel : BitVec 2) : Option RawAlg :=
  match alg.toNat, wsel.toNat with
  | 0, 0 => some .lcg16
  | 0, 1 => some .lcg26
  | 0, 2 => some .lcg32
  | 1, 2 => some .xs32
  | 2, 2 => some .xs128
  | _, _ => none

/-- The version an identifier names; none for an unsupported one (R66). -/
def versionOf (ver : BitVec 8) : Option Version :=
  if zeroField ver = 0 then
    (rawAlgOf (algField ver) (wselField ver)).map fun a => ⟨a, bdField ver⟩
  else none

/-- `supported(ver)` (R66). -/
def supported (ver : BitVec 8) : Bool := (versionOf ver).isSome

/-- BITS of a raw algorithm (R8, R66). -/
def RawAlg.bits : RawAlg → Nat
  | .lcg16 => 16
  | .lcg26 => 26
  | .lcg32 => 32
  | .xs32 => 32
  | .xs128 => 32

/-- BITS of a version (R8, R66). -/
def Version.bits (v : Version) : Nat := v.raw.bits
/-- NSTATES (R8). -/
def Version.nstates (v : Version) : Nat := 2 ^ v.bits
/-- MASK (R8). -/
def Version.mask (v : Version) : Nat := v.nstates - 1

/-- The constants `A` and `C` of the three LCG widths (R89). -/
def lcg16Pair (c : Config) : Nat × Nat := (c.lcg16A.toNat, c.lcg16C.toNat)
/-- The 26-bit pair (R89). -/
def lcg26Pair (c : Config) : Nat × Nat := (c.lcg26A.toNat, c.lcg26C.toNat)
/-- The 32-bit pair (R89), also the recurrence that seeds xorshift128 (R85). -/
def lcg32Pair : Nat × Nat := (lcg32A, lcg32C)

/-! ## The operand (R62) -/

/-- The seed, signed two's complement (R62). -/
def seedValue (arg : Arg) : Int := arg.toInt

/-- The seed is negative exactly when `ARG[63] = 1` (R62, R81). -/
def seedNegative (arg : Arg) : Bool := arg.getLsbD 63

/-- `ARG[BITS-1:0]`, the truncated seed (R82). -/
def seedLow (v : Version) (arg : Arg) : Word := BitVec.ofNat 32 (arg.toNat % 2 ^ v.bits)

/-- The sequence length, unsigned (R62). -/
def lengthValue (arg : Arg) : Nat := arg.toNat

/-! ## Indexes and draws -/

/-- `idx(r)`, the low BD_BITS bits of an output (R111). -/
def tabIndex (c : Config) (o : Word) : Nat := o.toNat % 2 ^ c.bdBits

/-- A draw: the top `b` bits of an output of `bits` bits (R134). -/
def drawOf (bits b : Nat) (o : Word) : Word := o >>> (bits - b)

end Sys2Proof.Machine
end

