-- ==== Sys2Proof/Machine/Ops.lean ====
section
/-! DEFINITION. The named operations every command is made of: field updates, the sequence memory (R42), the response and
the delivery of an error (R63, R187), the guard on an instance (R185), the raw generators and their seeding (R83 to R94),
the decorrelation stage (R112, R114, R115), and reset (R201, R202). -/

namespace Sys2Proof.Machine

/-! ## Field updates -/

/-- Writes S[0]. -/
def State.setS0 (s : State) (x : Word) : State := { s with s0 := x }
/-- Writes the four state words. -/
def State.setWords (s : State) (a b c d : Word) : State := { s with s0 := a, s1 := b, s2 := c, s3 := d }
/-- Writes TAB. -/
def State.setTab (s : State) (t : List Word) : State := { s with tab := t }
/-- Writes CUR. -/
def State.setCur (s : State) (x : Word) : State := { s with cur := x }
/-- Writes VER and sets CONFIGURED: a new instance (R160). -/
def State.setInstance (s : State) (ver : BitVec 8) : State := { s with ver := ver, configured := true }
/-- Puts a response on the response port; BUSY falls with it (R29, R187). -/
def State.issue (s : State) (r : Response) : State := { s with responses := r :: s.responses, busy := false }
/-- The moves the host is still to make. -/
def State.setHost (s : State) (h : List HostMove) : State := { s with host := h }
/-- Writes SEQ. -/
def State.setSeq (s : State) (m : Memory) : State := { s with seq := m }
/-- What the controller does next. -/
def State.setPhase (s : State) (p : Phase) : State := { s with phase := p }
/-- Writes B and HI. -/
def State.setBHi (s : State) (b : BitVec 6) (hi : BitVec 33) : State := { s with b := b, hi := hi }
/-- Writes R. -/
def State.setR (s : State) (x : Word) : State := { s with r := x }
/-- Writes T0. -/
def State.setT0 (s : State) (x : Elem) : State := { s with t0 := x }
/-- Writes T1. -/
def State.setT1 (s : State) (x : Elem) : State := { s with t1 := x }
/-- Writes J. -/
def State.setJ (s : State) (x : BitVec 33) : State := { s with j := x }
/-- Loads N, J, B and HI for a new SHUFFLE and raises BUSY (R130, R142 CHECK). -/
def State.startShuffle (s : State) (n : BitVec 33) : State :=
  { s with n := n, j := 1, b := 1, hi := 2, busy := true, phase := .loop }

/-! ## The sequence memory (R41, R42, R46) -/

/-- What an index that is not listed reads as. Every memory of the index space can be listed, so this fixes the memory of
State.reset and nothing else (DESIGN CHOICE, unsafe, entry 5). -/
def Memory.unlisted : Elem := 0

/-- Canonical form: strictly rising indexes, and no entry that an unlisted index would read as. -/
abbrev Memory.wf (m : Memory) : Prop :=
  m.Pairwise (fun p q => p.1 < q.1) ∧ ∀ p ∈ m, p.2 ≠ Memory.unlisted

/-- Every listed element lies in the index space and is ELEM_W bits wide (R40, R41). -/
abbrev Memory.fits (elemW : Nat) (m : Memory) : Prop :=
  ∀ p ∈ m, p.1 < 2 ^ 32 ∧ p.2 < 2 ^ elemW

/-- `MemRead(SEQ, i, 1)` (R42). -/
def Memory.read : Memory → Nat → Elem
  | [], _ => Memory.unlisted
  | (k, x) :: rest, i => if i = k then x else Memory.read rest i

/-- `MemWrite(SEQ, i, 1, v)` (R42), keeping the canonical form. -/
def Memory.write : Memory → Nat → Elem → Memory
  | [], i, v => if v = Memory.unlisted then [] else [(i, v)]
  | (k, x) :: rest, i, v =>
    if i < k then
      if v = Memory.unlisted then (k, x) :: rest else (i, v) :: (k, x) :: rest
    else if i = k then
      if v = Memory.unlisted then rest else (i, v) :: rest
    else (k, x) :: Memory.write rest i v

/-- The element at an index of SEQ. -/
def State.memRead (s : State) (i : Nat) : Elem := s.seq.read i

/-- Replaces one element of SEQ. -/
def State.memWrite (s : State) (i : Nat) (v : Elem) : State := s.setSeq (s.seq.write i v)

/-! ## Responses and errors (R63, R180 to R189) -/

/-- `respond(status, d)`: ends the command with a response (R11, R63). -/
def respond (st : Status) (d : BitVec 64) (s : State) : Host.Outcome State Fault Refusal :=
  .next (s.issue ⟨st, d⟩)

/-- The five errors (R180). -/
inductive Error where
  | invalidSeed
  | unsupportedVersion
  | sequenceTooLong
  | illegalCommand
  | notConstructed
deriving DecidableEq, Repr

/-- The outcome code of an error (R68, R180). -/
def Error.status : Error → Status
  | .invalidSeed => .invalidSeed
  | .unsupportedVersion => .unsupportedVersion
  | .sequenceTooLong => .sequenceTooLong
  | .illegalCommand => .illegalCommand
  | .notConstructed => .notConstructed

/-- Delivery of an error, the block's "trap entry" (R187): the response to the failing command holds the code and
`RDATA = 0`, and nothing else changes (R188). There is no handler, so there is no return either (R189): the next command
runs as if this one had never been presented. -/
def raise (e : Error) (s : State) : Host.Outcome State Fault Refusal := respond e.status 0 s

/-- The guard of every command that needs an instance (R185): NotConstructed while CONFIGURED is 0, else the version of the
instance. CONFIGURED with an unsupported VER is no state of a run (R24, R161); it faults (entry 12). -/
def withVersion (s : State) (k : Version → Host.Outcome State Fault Refusal) : Host.Outcome State Fault Refusal :=
  if s.configured then
    match versionOf s.ver with
    | some v => k v
    | none => .fault .valuelessRead
  else raise .notConstructed s

/-! ## The raw generators (R87 to R94) -/

/-- One LCG step, `(A * x + C) mod 2^BITS`, exact and then narrowed (R88, R90). The sum is written with the constant first
so that no proof meets the constant in unary. -/
def lcgStep (ac : Nat × Nat) (bits : Nat) (x : Word) : Word :=
  BitVec.ofNat 32 ((ac.2 + ac.1 * x.toNat) % 2 ^ bits)

/-- One xorshift32 step (R91). -/
def xs32Step (sh : Xs32Shift) (x : Word) : Word :=
  let x := x ^^^ (x <<< sh.a)
  let x := x ^^^ (x >>> sh.b)
  x ^^^ (x <<< sh.c)

/-- The new word of one xorshift128 step, from the oldest word and the newest (R94). -/
def xs128Word (x w : Word) : Word :=
  let t := x ^^^ (x <<< xs128ShiftA)
  w ^^^ (w >>> xs128ShiftB) ^^^ t ^^^ (t >>> xs128ShiftC)

/-- `next_lcg()`: the new state is the output (R88). -/
def nextLcg (ac : Nat × Nat) (bits : Nat) (s : State) : Word × State :=
  (lcgStep ac bits s.s0, s.setS0 (lcgStep ac bits s.s0))

/-- `next_xs32()` (R91). -/
def nextXs32 (s : State) : Word × State :=
  (xs32Step s.config.xs32Shift s.s0, s.setS0 (xs32Step s.config.xs32Shift s.s0))

/-- `next_xs128()` (R94). -/
def nextXs128 (s : State) : Word × State :=
  (xs128Word s.s0 s.s3, s.setWords s.s1 s.s2 s.s3 (xs128Word s.s0 s.s3))

/-- `next_raw()`: the output, and the state after it (R87). -/
def nextRaw (a : RawAlg) (s : State) : Word × State :=
  match a with
  | .lcg16 => nextLcg (lcg16Pair s.config) 16 s
  | .lcg26 => nextLcg (lcg26Pair s.config) 26 s
  | .lcg32 => nextLcg lcg32Pair 32 s
  | .xs32 => nextXs32 s
  | .xs128 => nextXs128 s

/-- `k` raw outputs in order, and the state after them. -/
def rawOutputs (a : RawAlg) : Nat → State → List Word × State
  | 0, s => ([], s)
  | k + 1, s =>
    let p := nextRaw a s
    let q := rawOutputs a k p.2
    (p.1 :: q.1, q.2)

/-! ## Seeding (R83 to R85, R93) -/

/-- `seed_lcg(v)` (R84). -/
def seedLcg (v : Word) (s : State) : State := s.setS0 v

/-- `seed_xs32(v)`: a zero state is replaced (R93). -/
def seedXs32 (v : Word) (s : State) : State := s.setS0 (if v = 0 then xs32Fallback else v)

/-- `seed_xs128(v)`: XS128_SEED_ITERS = 4 iterates of the 32-bit LCG, then the discarded warm-up outputs (R85). -/
def seedXs128 (v : Word) (s : State) : State :=
  let a := lcgStep lcg32Pair 32 v
  let b := lcgStep lcg32Pair 32 a
  let c := lcgStep lcg32Pair 32 b
  let d := lcgStep lcg32Pair 32 c
  (rawOutputs .xs128 xs128Warmup (s.setWords a b c d)).2

/-- The raw part of `seed_all(v)` (R83). Words the algorithm does not use are left unchanged, as R22 allows
(DESIGN CHOICE, unsafe, entry 10). -/
def seedRaw (a : RawAlg) (v : Word) (s : State) : State :=
  match a with
  | .lcg16 => seedLcg v s
  | .lcg26 => seedLcg v s
  | .lcg32 => seedLcg v s
  | .xs32 => seedXs32 v s
  | .xs128 => seedXs128 v s

/-- `bd_fill()`: the table from the next `2^BD_BITS` raw outputs, entry 0 first, then CUR from one more (R112). -/
def bdFill (a : RawAlg) (s : State) : State :=
  let p := rawOutputs a (2 ^ s.config.bdBits) s
  let q := nextRaw a (p.2.setTab p.1)
  q.2.setCur q.1

/-- `seed_all(v)`: the raw state, then the decorrelation stage of a wrapped version (R83). -/
def seedAll (v : Version) (x : Word) (s : State) : State :=
  if v.wrapped then bdFill v.raw (seedRaw v.raw x s) else seedRaw v.raw x s

/-! ## The public output (R114, R115) -/

/-- `get()` on a wrapped version: the current result out, its table entry in, a fresh raw output into the emptied slot; the
entry is read before it is written (R114). The index is always in range of a table of `2^BD_BITS` entries (R111). -/
def getWrapped (a : RawAlg) (s : State) : Word × State :=
  let i := tabIndex s.config s.cur
  let q := nextRaw a (s.setCur (s.tab.getD i 0))
  (s.cur, q.2.setTab (q.2.tab.set i q.1))

/-- `get()`: the wrapped output, or the raw one where there is no wrapper (R114, R115). -/
def getOutput (v : Version) (s : State) : Word × State :=
  if v.wrapped then getWrapped v.raw s else nextRaw v.raw s

/-- `k` public outputs in order, and the state after them. -/
def getOutputs (v : Version) : Nat → State → List Word × State
  | 0, s => ([], s)
  | k + 1, s =>
    let p := getOutput v s
    let q := getOutputs v k p.2
    (p.1 :: q.1, q.2)

/-! ## The host's moves other than a command -/

/-- The host stores an element into SEQ between commands (R48, R203); the element is ELEM_W bits wide. -/
def hostStore (i : BitVec 32) (x : Elem) (s : State) : State := s.memWrite i.toNat (x % 2 ^ s.config.elemW)

/-- Reset (R201, R202): CONFIGURED and BUSY fall, a command in progress is abandoned without a response, SEQ keeps what was
written. Every other register is unspecified and takes the value it has in State.reset (DESIGN CHOICE, unsafe, entry 4). -/
def applyReset (s : State) : State :=
  { State.reset with
    config := s.config
    tab := List.replicate (2 ^ s.config.bdBits) 0
    seq := s.seq
    host := s.host
    responses := s.responses }

end Sys2Proof.Machine
end

