-- ==== Sys2Proof/Machine/Decorrelation.lean ====
section
/-! DEFINITION. GET (41_decorrelation.md). -/

namespace Sys2Proof.Machine

/-- GET (R113): the next public output. -/
def execGet (s : State) : Host.Outcome State Fault Refusal :=
  withVersion s fun v =>
    respond .ok ((getOutput v s).1.setWidth 64) (getOutput v s).2

end Sys2Proof.Machine
end

