-- ==== Sys2Proof/Machine/SeedRaw.lean ====
section
/-! DEFINITION. SEED and NEXT_RAW (40_seed_raw.md). -/

namespace Sys2Proof.Machine

/-- SEED (R80): NotConstructed, then InvalidSeed, then the whole of `seed_all` on the truncated seed. -/
def execSeed (arg : Arg) (s : State) : Host.Outcome State Fault Refusal :=
  withVersion s fun v =>
    if seedNegative arg then raise .invalidSeed s
    else respond .ok 0 (seedAll v (seedLow v arg) s)

/-- NEXT_RAW (R86): one raw output; on a wrapped version TAB and CUR are left alone (R116). -/
def execNextRaw (s : State) : Host.Outcome State Fault Refusal :=
  withVersion s fun v =>
    respond .ok ((nextRaw v.raw s).1.setWidth 64) (nextRaw v.raw s).2

end Sys2Proof.Machine
end

