-- ==== Sys2Proof/Machine/Shuffle.lean ====
section
/-! DEFINITION. SHUFFLE (42_shuffle.md): the acceptance of the command, the controller's phases, each one step of the block
(R142), and R130 as one function under fuel, which the phases refine (R142: "equivalent to rule R130 by construction"). -/

namespace Sys2Proof.Machine

/-- SHUFFLE accepted, the CHECK phase (R130, R142): NotConstructed, then SequenceTooLong when `ARG > NSTATES` as 64-bit
unsigned numbers (R131); else N, J, B and HI are loaded and the controller runs, answering when it ends. -/
def execShuffle (arg : Arg) (s : State) : Host.Outcome State Fault Refusal :=
  withVersion s fun v =>
    if v.nstates < lengthValue arg then raise .sequenceTooLong s
    else .next (s.startShuffle (arg.setWidth 33))

/-! ## The phases (R142) -/

/-- LOOP: the response when `J >= N`, compared as 33-bit numbers. -/
def phaseLoop (s : State) : Host.Outcome State Fault Refusal :=
  if s.n.toNat ≤ s.j.toNat then respond .ok 0 s else .next (s.setPhase .width)

/-- WIDTH: at the next power of two B grows and HI doubles (R133). -/
def phaseWidth (s : State) : Host.Outcome State Fault Refusal :=
  .next ((if s.j = s.hi then s.setBHi (s.b + 1) (s.hi <<< 1) else s).setPhase .draw)

/-- DRAW: the top B bits of one public output (R134). -/
def phaseDraw (s : State) : Host.Outcome State Fault Refusal :=
  if s.configured then
    match versionOf s.ver with
    | some v => .next (((getOutput v s).2.setR (drawOf v.bits s.b.toNat (getOutput v s).1)).setPhase .test)
    | none => .fault .valuelessRead
  else .fault .valuelessRead

/-- TEST: accept the draw when `R <= J`, else draw again (R135). -/
def phaseTest (s : State) : Host.Outcome State Fault Refusal :=
  .next (s.setPhase (if s.r.toNat ≤ s.j.toNat then .rdR else .draw))

/-- RD_R: the first of the swap's four accesses (R136). -/
def phaseRdR (s : State) : Host.Outcome State Fault Refusal :=
  .next ((s.setT0 (s.memRead s.r.toNat)).setPhase .rdJ)

/-- RD_J: the second access (R136). -/
def phaseRdJ (s : State) : Host.Outcome State Fault Refusal :=
  .next ((s.setT1 (s.memRead s.j.toNat)).setPhase .wrJ)

/-- WR_J: the third access (R136). -/
def phaseWrJ (s : State) : Host.Outcome State Fault Refusal :=
  .next ((s.memWrite s.j.toNat s.t0).setPhase .wrR)

/-- WR_R: the fourth access, and on to the next position (R136, R142). -/
def phaseWrR (s : State) : Host.Outcome State Fault Refusal :=
  .next (((s.memWrite s.r.toNat s.t1).setJ (s.j + 1)).setPhase .loop)

/-- One phase of the controller. -/
def controllerStep (s : State) : Host.Outcome State Fault Refusal :=
  match s.phase with
  | .loop => phaseLoop s
  | .width => phaseWidth s
  | .draw => phaseDraw s
  | .test => phaseTest s
  | .rdR => phaseRdR s
  | .rdJ => phaseRdJ s
  | .wrJ => phaseWrJ s
  | .wrR => phaseWrR s

/-! ## R130 as one function

The generator and the sequence memory alone: what R130's loop does to them, in the words of its pseudocode. `fuel` bounds
the draws of one step; none means that it was not enough (R139 puts no bound on them). -/

/-- The `repeat ... until R <= J` of R130: the accepted draw, the state after it. -/
def drawUntil (v : Version) (j b : Nat) : Nat → State → Option (Nat × State)
  | 0, _ => none
  | fuel + 1, s =>
    let p := getOutput v s
    let r := (drawOf v.bits b p.1).toNat
    if r ≤ j then some (r, p.2) else drawUntil v j b fuel p.2

/-- The swap of R136 as one update of the memory. -/
def Memory.swap (m : Memory) (r j : Nat) : Memory := (m.write j (m.read r)).write r (m.read j)

/-- The `for` loop of R130 from position `j`, `k` iterations left. -/
def shuffleFrom (v : Version) (fuel : Nat) : Nat → Nat → Nat → Nat → State → Option State
  | 0, _, _, _, s => some s
  | k + 1, j, b, hi, s =>
    let b' := if j = hi then b + 1 else b
    let hi' := if j = hi then 2 * hi else hi
    match drawUntil v j b' fuel s with
    | none => none
    | some (r, s') => shuffleFrom v fuel k (j + 1) b' hi' (s'.setSeq (s'.seq.swap r j))

/-- The body of R130 after its checks: positions `1 .. n - 1`. -/
def shuffleWhole (v : Version) (fuel n : Nat) (s : State) : Option State := shuffleFrom v fuel (n - 1) 1 1 2 s

end Sys2Proof.Machine
end

