-- ==== Sys2Proof/Machine/Flags.lean ====
section
/-! DEFINITION. The flags the block has (R35): CONFIGURED, BUSY and the derived decorrelation-present bit, the status word
that RDCFG returns (R30), and the numbers of the outcome codes (R68). There are no condition codes. -/

namespace Sys2Proof.Machine

/-- The number of an outcome code in the 4-bit STATUS field (R68). -/
def Status.code : Status → BitVec 4
  | .ok => 0
  | .invalidSeed => 1
  | .unsupportedVersion => 2
  | .sequenceTooLong => 3
  | .illegalCommand => 4
  | .notConstructed => 5

/-- `CONFIGURED & VER[4]`, decorrelation present (R30, R35). -/
def decorrelationPresent (s : State) : Bool := s.configured && bdField s.ver

/-- The status word of RDCFG selector 5: bit 0 CONFIGURED, bit 1 decorrelation present (R30, R167). -/
def statusWord (s : State) : BitVec 64 :=
  ((BitVec.ofBool (decorrelationPresent s)) ++ (BitVec.ofBool s.configured)).setWidth 64

end Sys2Proof.Machine
end

