-- ==== Sys2Proof/Machine/System.lean ====
section
/-! DEFINITION. CONSTRUCT, RDCFG and NOP (43_dispatch.md). -/

namespace Sys2Proof.Machine

/-- CONSTRUCT (R160): UnsupportedVersion, then InvalidSeed, then VER and CONFIGURED, then `seed_all` under the new version. -/
def execConstruct (ver : BitVec 8) (arg : Arg) (s : State) : Host.Outcome State Fault Refusal :=
  match versionOf ver with
  | none => raise .unsupportedVersion s
  | some v =>
    if seedNegative arg then raise .invalidSeed s
    else respond .ok (ver.setWidth 64) (seedAll v (seedLow v arg) (s.setInstance ver))

/-- What RDCFG returns for the selectors 0 to 4 (R30, R167). -/
def configValue (sel : BitVec 8) (v : Version) (s : State) : BitVec 64 :=
  match sel.toNat with
  | 0 => s.ver.setWidth 64
  | 1 => BitVec.ofNat 64 v.bits
  | 2 => BitVec.ofNat 64 v.nstates
  | 3 => BitVec.ofNat 64 v.mask
  | _ => BitVec.ofNat 64 (if v.wrapped then s.config.bdBits else 0)

/-- RDCFG (R167). A selector above 5 is an illegal command word and does not come from the decoder (R69 (d)); the meaning
answers it as R69 says (DEDUCED, safe, entry 15). -/
def execRdcfg (sel : BitVec 8) (s : State) : Host.Outcome State Fault Refusal :=
  if sel.toNat = 5 then respond .ok (statusWord s) s
  else if 5 < sel.toNat then raise .illegalCommand s
  else withVersion s fun v => respond .ok (configValue sel v s) s

/-- NOP (R168). -/
def execNop (s : State) : Host.Outcome State Fault Refusal := respond .ok 0 s

end Sys2Proof.Machine
end

