-- ==== Sys2Proof/Machine/Dispatch.lean ====
section
/-! DEFINITION. One arm per command. -/

namespace Sys2Proof.Machine

def exec (i : Instr) (s : State) : Host.Outcome State Fault Refusal :=
  match i with
  | .nop => Sys2Proof.Machine.execNop s
  | .construct ver arg => Sys2Proof.Machine.execConstruct ver arg s
  | .seed arg => Sys2Proof.Machine.execSeed arg s
  | .nextRaw => Sys2Proof.Machine.execNextRaw s
  | .get => Sys2Proof.Machine.execGet s
  | .shuffle arg => Sys2Proof.Machine.execShuffle arg s
  | .rdcfg sel => Sys2Proof.Machine.execRdcfg sel s

end Sys2Proof.Machine
end

