-- ==== Sys2Proof/Machine/Accept.lean ====
section
/-! DEFINITION. What happens to a presented command (R69, R74) and to the host's other moves (R205, R206, R200). -/

namespace Sys2Proof.Machine

/-- A command accepted: decoded first, an illegal word answered ILLEGAL_COMMAND (R69, R184), a legal one run (R74). -/
def acceptCommand (c : Command) (s : State) : Host.Outcome State Fault Refusal :=
  match decode c with
  | .ok i => exec i s
  | .error _ => raise .illegalCommand s

/-- What the block does by itself in one step: a phase of the controller while BUSY is 1, nothing between commands
(R142, R196). -/
def blockStep (s : State) : Host.Outcome State Fault Refusal :=
  if s.busy then controllerStep s else .next s

/-- A move of the host that the interface holds off while BUSY is 1 (R205, R206): made now, or left standing while the
controller goes on. The moves listed behind it wait with it, a reset among them (DESIGN CHOICE, unsafe, entry 19). -/
def whenFree (s : State) (move : Host.Outcome State Fault Refusal) : Host.Outcome State Fault Refusal :=
  if s.busy then controllerStep s else move

/-- One step with the host's next move before it (R13). A reset is made when it is the next move, at any time (R200). What
becomes of a command or store that is held off when reset is asserted the spec does not say (R202 is silent): here a move
that is held off is made before whatever is listed behind it, a reset too, and one listed behind the reset is made after it
(DESIGN CHOICE, unsafe, entry 19). -/
def hostStep (s : State) : Host.Outcome State Fault Refusal :=
  match s.host with
  | [] => blockStep s
  | .wait :: rest => blockStep (s.setHost rest)
  | .reset :: rest => .next (applyReset (s.setHost rest))
  | .store i x :: rest => whenFree s (.next (hostStore i x (s.setHost rest)))
  | .command c :: rest => whenFree s (acceptCommand c (s.setHost rest))

/-- A command placed on the command port of a free block, ahead of the host's other moves. -/
def presentCommand (c : Command) (s : State) : State :=
  { s with busy := false, host := .command c :: s.host }

end Sys2Proof.Machine
end

