-- ==== Sys2Proof/Machine/Step.lean ====
section
/-! DEFINITION. One step of the machine, and a command placed where the next step takes it. -/

namespace Sys2Proof.Machine

/-- One step: the host's next move, or one phase of the SHUFFLE controller (R13, R142). -/
def step (s : State) : Host.Outcome State Fault Refusal := hostStep s

/-- The state with the command whose bits are `w` presented on the command port, the block free to take it. -/
def State.withFetchWord (s : State) (nbits w : Nat) : State := presentCommand (commandOfBits nbits w) s

end Sys2Proof.Machine
end

