-- ==== Sys2Proof/Safety.lean ====
section
/-! DEFINITION. What counts as a safe run, in the terms the statements use: the invariant of the block's registers (R22, R23,
R26, R27, R96), of its controller (R28, R133, R135, R136) and of SEQ (R40, R41), and what it is for two states to agree on
the generator or on everything but the elements of SEQ. -/

namespace Sys2Proof

/-- What R100 asks of XS32_SHIFT: the map of R91 takes 0 to 0 and runs through all the other words on one cycle. That it is
a permutation follows: the cycle is finite and the words on it are all but 0. -/
def Xs32Shift.OneCycle (sh : Xs32Shift) : Prop :=
  Machine.xs32Step sh 0 = 0 ∧ ∀ x y : Word, x ≠ 0 → y ≠ 0 → ∃ k : Nat, (Machine.xs32Step sh)^[k] x = y

/-- What the spec requires of the parameters: R97 for the LCG pairs (the Hull-Dobell conditions it states;
`1 <= A < 2^BITS` and `C < 2^BITS` follow from these and the widths), amounts in 1 .. 31 and the one cycle of R100 for
the shifts, `BD_BITS <= 16`, `ELEM_W >= 1` (R7). -/
structure Config.Ok (c : Config) : Prop where
  lcg16 : c.lcg16A.toNat % 4 = 1 ∧ c.lcg16C.toNat % 2 = 1
  lcg26 : c.lcg26A.toNat % 4 = 1 ∧ c.lcg26C.toNat % 2 = 1
  shifts : (1 ≤ c.xs32Shift.a ∧ c.xs32Shift.a ≤ 31) ∧ (1 ≤ c.xs32Shift.b ∧ c.xs32Shift.b ≤ 31) ∧
    (1 ≤ c.xs32Shift.c ∧ c.xs32Shift.c ≤ 31)
  oneCycle : c.xs32Shift.OneCycle
  bdBits : c.bdBits ≤ 16
  elemW : 1 ≤ c.elemW

end Sys2Proof

namespace Sys2Proof.Machine

/-- A raw output is `0 .. MASK`, and not 0 on xorshift32 (R96). -/
abbrev OutputOk (a : RawAlg) (o : Word) : Prop := o.toNat < 2 ^ a.bits ∧ (a = .xs32 → o ≠ 0)

/-- The state words the algorithm uses, within their ranges (R22, R23). -/
abbrev RawOk (a : RawAlg) (s : State) : Prop :=
  s.s0.toNat < 2 ^ a.bits ∧ (a = .xs32 → s.s0 ≠ 0) ∧
    (a = .xs128 → ¬(s.s0 = 0 ∧ s.s1 = 0 ∧ s.s2 = 0 ∧ s.s3 = 0))

/-- TAB and CUR of a wrapped version hold raw outputs (R26, R27, R114, R118). -/
abbrev WrapOk (v : Version) (s : State) : Prop :=
  v.wrapped = true → (∀ o ∈ s.tab, OutputOk v.raw o) ∧ OutputOk v.raw s.cur

/-- The controller's registers while BUSY is 1: J covers no position beyond N (R34), B is the number of significant bits of J
during a draw and HI is `2^B` (R133), the draw is in `0 .. 2^B - 1` and, once accepted, at most J (R134, R135), T0 and T1
hold the elements read (R136). -/
structure ControllerOk (v : Version) (s : State) : Prop where
  length : s.n.toNat ≤ v.nstates
  width : 1 ≤ s.b.toNat ∧ s.b.toNat ≤ v.bits
  hi : s.hi.toNat = 2 ^ s.b.toNat
  low : 2 ^ (s.b.toNat - 1) ≤ s.j.toNat
  high : s.j.toNat ≤ 2 ^ s.b.toNat
  between : s.phase = .loop → s.j.toNat ≤ max s.n.toNat 1
  inside : s.phase ≠ .loop → s.j.toNat < s.n.toNat
  covered : s.phase ≠ .loop → s.phase ≠ .width → s.j.toNat < 2 ^ s.b.toNat
  drawn : s.phase = .test → s.r.toNat < 2 ^ s.b.toNat
  accepted : s.phase = .rdR ∨ s.phase = .rdJ ∨ s.phase = .wrJ ∨ s.phase = .wrR → s.r.toNat ≤ s.j.toNat
  readR : s.phase = .rdJ ∨ s.phase = .wrJ → s.t0 = s.memRead s.r.toNat
  readJ : s.phase = .wrJ → s.t1 = s.memRead s.j.toNat
  writtenJ : s.phase = .wrR → s.memRead s.j.toNat = s.t0

/-- The invariant: what holds of the block after reset and after every step. -/
structure State.Inv (s : State) : Prop where
  config : s.config.Ok
  tabLength : s.tab.length = 2 ^ s.config.bdBits
  seqWf : s.seq.wf
  seqFits : s.seq.fits s.config.elemW
  swapFits : s.t0 < 2 ^ s.config.elemW ∧ s.t1 < 2 ^ s.config.elemW
  generator : s.configured = true → ∃ v, versionOf s.ver = some v ∧ RawOk v.raw s ∧ WrapOk v s
  controller : s.busy = true → s.configured = true ∧ ∃ v, versionOf s.ver = some v ∧ ControllerOk v s

/-- The host's next move, if it has one, neither lets a step pass nor resets: while BUSY is 1 it is held off (R205). -/
abbrev HostHeldOff (h : List HostMove) : Prop := ∀ m ∈ h.head?, m ≠ .wait ∧ m ≠ .reset

/-- The two states agree on everything the generator of version `v` reads: the parameters, the state words its algorithm
uses (R22), and on a wrapped version TAB and CUR (R98). -/
structure SameGenerator (v : Version) (s t : State) : Prop where
  config : s.config = t.config
  s0 : s.s0 = t.s0
  rest : v.raw = .xs128 → s.s1 = t.s1 ∧ s.s2 = t.s2 ∧ s.s3 = t.s3
  wrap : v.wrapped = true → s.tab = t.tab ∧ s.cur = t.cur

/-- `k` steps in a row, as long as each answers a next state. -/
def runSteps : Nat → State → Host.Outcome State Fault Refusal
  | 0, s => .next s
  | k + 1, s =>
    match step s with
    | .next t => runSteps k t
    | .fault r => .fault r
    | .refused r => .refused r

/-- How many of `k` steps are draws: phase DRAW of a controller that is running (R142). -/
def drawSteps : Nat → State → Nat
  | 0, _ => 0
  | k + 1, s =>
    match step s with
    | .next t => (if s.busy = true ∧ s.phase = .draw then 1 else 0) + drawSteps k t
    | .fault _ => 0
    | .refused _ => 0

/-- The outputs of a sequence of calls, `get()` for true and `next_raw()` for false (R98). -/
def replay (v : Version) : List Bool → State → List Word
  | [], _ => []
  | true :: calls, s => (getOutput v s).1 :: replay v calls (getOutput v s).2
  | false :: calls, s => (nextRaw v.raw s).1 :: replay v calls (nextRaw v.raw s).2

/-- The two states agree on everything but the elements of SEQ and the two elements being moved. -/
def SameButElements (s t : State) : Prop :=
  t = { s with seq := t.seq, t0 := t.t0, t1 := t.t1 }

end Sys2Proof.Machine
end

