-- ==== Sys2Proof/Certificates/Slice0/Obligations.lean ====
section
/-! DEFINITION. The statements about the model, for the provers. Each docstring names the rule of spec/ it formalises. -/

open Sys2Proof Sys2Proof.Machine

/-! ## Decoding -/

/-- R74, R205: a free block takes the presented command, decodes it and runs it; the step is the meaning on the state whose
host has one move less. `withFetchWord` is such a state. -/
def Obligations.StepRunsDecodedCommand : Prop :=
  (∀ (s : State) (c : Command) (rest : List HostMove) (i : Instr), s.busy = false → s.host = .command c :: rest →
    decode c = .ok i → step s = exec i (s.setHost rest)) ∧
  ∀ (s : State) (nbits w : Nat) (i : Instr), decodeTableWord nbits w = some i →
    step (s.withFetchWord nbits w) = exec i { s with busy := false }

/-- R69: the four tests on the word, in their order, say which words are illegal and why; every other word is a command, a
CONSTRUCT with any imm8 among them. A free block answers an illegal word ILLEGAL_COMMAND with data 0 and no other effect,
whatever ARG holds and whether or not it is configured; a CONSTRUCT word of an unsupported version is run and answered
UNSUPPORTED_VERSION instead. The fields are read here by arithmetic. -/
def Obligations.IllegalCommandWordAnswered : Prop :=
  (∀ c : Command,
    let op := c.cw.toNat % 2 ^ 8
    let imm := c.cw.toNat / 2 ^ 8 % 2 ^ 8
    let rsv := c.cw.toNat / 2 ^ 16
    (rsv ≠ 0 → decode c = .error .reservedBits) ∧
    (rsv = 0 → 6 < op → decode c = .error .unknownOpcode) ∧
    (rsv = 0 → (op = 0 ∨ op = 2 ∨ op = 3 ∨ op = 4 ∨ op = 5) → imm ≠ 0 → decode c = .error .immNotZero) ∧
    (rsv = 0 → op = 6 → 5 < imm → decode c = .error .badSelector) ∧
    (rsv = 0 → (op = 0 ∨ op = 2 ∨ op = 3 ∨ op = 4 ∨ op = 5) → imm = 0 → ∃ i, decode c = .ok i) ∧
    (rsv = 0 → op = 6 → imm ≤ 5 → ∃ i, decode c = .ok i) ∧
    (rsv = 0 → op = 1 → decode c = .ok (.construct (BitVec.ofNat 8 imm) c.arg))) ∧
  (∀ (s : State) (c : Command) (rest : List HostMove) (e : DecodeError), s.busy = false → s.host = .command c :: rest →
    decode c = .error e →
    step s = .next { s with host := rest, responses := ⟨.illegalCommand, 0⟩ :: s.responses }) ∧
  ∀ (s : State) (c : Command) (rest : List HostMove), s.busy = false → s.host = .command c :: rest →
    c.cw.toNat / 2 ^ 16 = 0 → c.cw.toNat % 2 ^ 8 = 1 → supported (BitVec.ofNat 8 (c.cw.toNat / 2 ^ 8 % 2 ^ 8)) = false →
    step s = .next { s with host := rest, responses := ⟨.unsupportedVersion, 0⟩ :: s.responses }

/-- Every well-formed command decodes from its encoding, with every operand at every value (R61, R62, R64, R72). -/
def Obligations.DecodeInvertsEncode : Prop :=
  ∀ i : Instr, i.wf = true → decode (encode i) = .ok i

/-- A word that decodes is the command's own encoding, and the operand is kept by the commands that read it (R61, R62, R64):
no two words mean one command. -/
def Obligations.EncodeInvertsDecode : Prop :=
  ∀ (c : Command) (i : Instr), decode c = .ok i →
    i.wf = true ∧ (encode i).cw = c.cw ∧ ((encode i).arg = c.arg ∨ (encode i).arg = 0) ∧
    (∀ arg : Arg, (i = .seed arg ∨ i = .shuffle arg ∨ ∃ ver, i = .construct ver arg) → arg = c.arg)

/-- R64, R70: a word decodes exactly when it selects one of the seven rows and, in RDCFG's row, its selector is at most 5;
the command read is the one of the row selected; no word selects two rows. -/
def Obligations.OpcodeRowsDecideDecoding : Prop :=
  (∀ (c : Command) (i : Instr), decode c = .ok i → (opRow i).selects c.cw = true ∧ opRow i ∈ opRows) ∧
  (∀ c : Command, (∃ i, decode c = .ok i) ↔
    ∃ row ∈ opRows, row.selects c.cw = true ∧ (row.pattern = 6 → c.cw.toNat / 2 ^ 8 % 2 ^ 8 ≤ 5)) ∧
  ∀ (w : CmdWord), ∀ p ∈ opRows, ∀ q ∈ opRows, p.selects w = true → q.selects w = true → p = q

/-- Words written out in 30_encoding.md section 7 and 95_test_vectors.md V2 decode to the commands they stand for. -/
def Obligations.WrittenOutWordsDecode : Prop :=
  decode ⟨0x00000A01, 0x000000000000002A⟩ = .ok (.construct 0x0A 42) ∧
  decode ⟨0x00000002, 0xFFFFFFFFFFFFFFFF⟩ = .ok (.seed (-1)) ∧
  decode ⟨0x00000003, 0⟩ = .ok .nextRaw ∧
  decode ⟨0x00000004, 0⟩ = .ok .get ∧
  decode ⟨0x00000005, 0x0000000100000001⟩ = .ok (.shuffle 4294967297) ∧
  decode ⟨0x00000206, 0⟩ = .ok (.rdcfg 2) ∧
  decode ⟨0x00000000, 0⟩ = .ok .nop ∧
  decode ⟨0x00010A01, 0⟩ = .error .reservedBits

/-- R72, R73: the assembler lines give the words of 30_encoding.md section 7 and of 95_test_vectors.md V1; the names that R72
accepts for a version and for a selector (R67) stand for the numbers of those words. (That a line is data and not
characters is the model's choice, entry 18.) -/
def Obligations.AssemblerLinesEncode : Prop :=
  assemble (.construct 0x0A 42) = ⟨0x00000A01, 0x000000000000002A⟩ ∧
  assemble (.construct 0x09 (-5)) = ⟨0x00000901, 0xFFFFFFFFFFFFFFFB⟩ ∧
  assemble (.seed (-1)) = ⟨0x00000002, 0xFFFFFFFFFFFFFFFF⟩ ∧
  assemble (.seed 21474836522) = ⟨0x00000002, 0x000000050000002A⟩ ∧
  assemble .constructDefault = ⟨0x00001A01, 0⟩ ∧
  (∀ ver : BitVec 8, assemble (.constructVer ver) = assemble (.construct ver 0)) ∧
  assemble (.shuffle 26) = ⟨0x00000005, 0x000000000000001A⟩ ∧
  assemble (.rdcfg 2) = ⟨0x00000206, 0⟩ ∧
  assemble .nop = ⟨0, 0⟩ ∧ assemble .nextRaw = ⟨3, 0⟩ ∧ assemble .get = ⟨4, 0⟩ ∧
  (selectorNames.map fun p => (p.1, (assemble (.rdcfg p.2)).cw)) =
    [("VERSION", 0x00000006), ("BITS", 0x00000106), ("NSTATES", 0x00000206), ("MASK", 0x00000306),
     ("BD_BITS", 0x00000406), ("STATUS", 0x00000506)] ∧
  (versionNames.map fun p => (p.1, (assemble (.construct p.2 0)).cw)) =
    [("LCG16", 0x00000001), ("LCG26", 0x00000401), ("LCG32", 0x00000801), ("XS32", 0x00000901), ("XS128", 0x00000A01),
     ("LCG16_BD", 0x00001001), ("LCG26_BD", 0x00001401), ("LCG32_BD", 0x00001801), ("XS32_BD", 0x00001901),
     ("XS128_BD", 0x00001A01)]

/-- R62, R72: a seed an assembler line may carry is the value the operand has, and it is negative exactly when ARG[63]
is 1. -/
def Obligations.SeedOperandIsSigned : Prop :=
  (∀ x : Int, -2 ^ 63 ≤ x → x < 2 ^ 63 → seedValue (seedArg x) = x) ∧
  (∀ arg : Arg, seedNegative arg = true ↔ seedValue arg < 0) ∧
  ∀ arg : Arg, seedValue arg = ((arg.toNat % 2 ^ 63 : Nat) : Int) - 2 ^ 63 * ((arg.toNat / 2 ^ 63 : Nat) : Int)

/-- R66: the supported identifiers are these ten, each with its name, its algorithm, BITS, NSTATES, MASK and wrapper, by the formula of
the rule; CONSTRUCT answers every other one with UNSUPPORTED_VERSION. -/
def Obligations.SupportedVersionsAreTheTen : Prop :=
  (∀ ver : BitVec 8, supported ver = true ↔ ver ∈ versionNames.map (·.2)) ∧
  (∀ ver : BitVec 8, supported ver = true ↔
    ver.toNat / 32 = 0 ∧
    ((ver.toNat % 4 = 0 ∧ (ver.toNat / 4 % 4 = 0 ∨ ver.toNat / 4 % 4 = 1 ∨ ver.toNat / 4 % 4 = 2)) ∨
      ((ver.toNat % 4 = 1 ∨ ver.toNat % 4 = 2) ∧ ver.toNat / 4 % 4 = 2))) ∧
  (versionNames.map fun p => (p.2, p.1, (versionOf p.2).map fun v => (v.bits, v.nstates, v.mask, v.wrapped))) =
    [(0x00, "LCG16", some (16, 65536, 0xFFFF, false)), (0x04, "LCG26", some (26, 67108864, 0x3FFFFFF, false)),
     (0x08, "LCG32", some (32, 4294967296, 0xFFFFFFFF, false)), (0x09, "XS32", some (32, 4294967296, 0xFFFFFFFF, false)),
     (0x0A, "XS128", some (32, 4294967296, 0xFFFFFFFF, false)), (0x10, "LCG16_BD", some (16, 65536, 0xFFFF, true)),
     (0x14, "LCG26_BD", some (26, 67108864, 0x3FFFFFF, true)), (0x18, "LCG32_BD", some (32, 4294967296, 0xFFFFFFFF, true)),
     (0x19, "XS32_BD", some (32, 4294967296, 0xFFFFFFFF, true)),
     (0x1A, "XS128_BD", some (32, 4294967296, 0xFFFFFFFF, true))] ∧
  versionOf 0x00 = some ⟨.lcg16, false⟩ ∧ versionOf 0x04 = some ⟨.lcg26, false⟩ ∧ versionOf 0x08 = some ⟨.lcg32, false⟩ ∧
  versionOf 0x09 = some ⟨.xs32, false⟩ ∧ versionOf 0x0A = some ⟨.xs128, false⟩ ∧
  versionOf 0x10 = some ⟨.lcg16, true⟩ ∧ versionOf 0x14 = some ⟨.lcg26, true⟩ ∧ versionOf 0x18 = some ⟨.lcg32, true⟩ ∧
  versionOf 0x19 = some ⟨.xs32, true⟩ ∧ versionOf 0x1A = some ⟨.xs128, true⟩ ∧ verDefault = 0x1A ∧
  ∀ (ver : BitVec 8) (arg : Arg) (s : State), ver ∉ versionNames.map (·.2) →
    exec (.construct ver arg) s = .next { s with responses := ⟨.unsupportedVersion, 0⟩ :: s.responses, busy := false }

/-! ## NOP, CONSTRUCT, RDCFG -/

/-- R168: NOP answers (OK, 0) in every state and changes nothing else; its word is 0 and ARG is ignored. -/
def Obligations.NopAnswersOk : Prop :=
  (∀ arg : Arg, decode ⟨0x00000000, arg⟩ = .ok .nop) ∧
  ∀ s : State, exec .nop s = .next { s with responses := ⟨.ok, 0⟩ :: s.responses, busy := false }

/-- R160, R162, R169: a CONSTRUCT of a supported version with a seed that is not negative always completes: the instance
holds the version, is seeded exactly as SEED seeds it (its own width truncates), and the answer is (OK, ver). The
parameters, the controller's registers, SEQ and the host's moves stay as they were; TAB and CUR too when the new version
is not wrapped (R26, R27; for what the spec leaves open there see entry 10). -/
def Obligations.ConstructMakesSeededInstance : Prop :=
  ∀ (s : State) (ver : BitVec 8) (arg : Arg) (v : Version), versionOf ver = some v → arg.toNat < 2 ^ 63 →
    ∃ g : State,
      exec (.construct ver arg) s =
        .next { g with responses := ⟨.ok, ver.setWidth 64⟩ :: s.responses, busy := false } ∧
      exec (.seed arg) { s with ver := ver, configured := true } =
        .next { g with responses := ⟨.ok, 0⟩ :: s.responses, busy := false } ∧
      g = { s with
        ver := ver, configured := true, s0 := g.s0, s1 := g.s1, s2 := g.s2, s3 := g.s3, tab := g.tab, cur := g.cur } ∧
      (v.wrapped = false → g.tab = s.tab ∧ g.cur = s.cur)

/-- R161, R162, R163: a CONSTRUCT of an unsupported version answers UNSUPPORTED_VERSION, whatever the seed; a negative seed for
a supported one answers INVALID_SEED; nothing but the response changes, configured or not. -/
def Obligations.ConstructErrorsChangeNothing : Prop :=
  ∀ (s : State) (ver : BitVec 8) (arg : Arg),
    (supported ver = false → exec (.construct ver arg) s =
      .next { s with responses := ⟨.unsupportedVersion, 0⟩ :: s.responses, busy := false }) ∧
    (supported ver = true → 2 ^ 63 ≤ arg.toNat → exec (.construct ver arg) s =
      .next { s with responses := ⟨.invalidSeed, 0⟩ :: s.responses, busy := false })

/-- R164: a successful CONSTRUCT on a configured block replaces the instance; nothing the new version uses depends on the old
instance. -/
def Obligations.ConstructForgetsOldInstance : Prop :=
  ∀ (s s' : State) (ver : BitVec 8) (arg : Arg) (v : Version), s.config = s'.config → versionOf ver = some v →
    arg.toNat < 2 ^ 63 →
    ∃ t t' : State, exec (.construct ver arg) s = .next t ∧ exec (.construct ver arg) s' = .next t' ∧
      t.ver = ver ∧ t'.ver = ver ∧ t.configured = true ∧ t'.configured = true ∧ SameGenerator v t t'

/-- R167, R30: what RDCFG returns for each selector, on a block with an instance and on one without; it changes nothing but
the response. A selector above 5 has no command word (R69 (d)). -/
def Obligations.RdcfgReturnsConstants : Prop :=
  (∀ s : State, exec (.rdcfg 5) s = .next
    { s with
      responses := ⟨.ok, BitVec.ofNat 64 ((if s.configured then 1 else 0) +
        2 * (if s.configured && s.ver.getLsbD 4 then 1 else 0))⟩ :: s.responses
      busy := false }) ∧
  (∀ (s : State) (sel : BitVec 8), sel.toNat < 5 → s.configured = false →
    exec (.rdcfg sel) s = .next { s with responses := ⟨.notConstructed, 0⟩ :: s.responses, busy := false }) ∧
  ∀ (s : State) (v : Version), s.configured = true → versionOf s.ver = some v →
    exec (.rdcfg 0) s = .next { s with responses := ⟨.ok, BitVec.ofNat 64 s.ver.toNat⟩ :: s.responses, busy := false } ∧
    exec (.rdcfg 1) s = .next { s with responses := ⟨.ok, BitVec.ofNat 64 v.bits⟩ :: s.responses, busy := false } ∧
    exec (.rdcfg 2) s = .next { s with responses := ⟨.ok, BitVec.ofNat 64 (2 ^ v.bits)⟩ :: s.responses, busy := false } ∧
    exec (.rdcfg 3) s =
      .next { s with responses := ⟨.ok, BitVec.ofNat 64 (2 ^ v.bits - 1)⟩ :: s.responses, busy := false } ∧
    exec (.rdcfg 4) s = .next
      { s with
        responses := ⟨.ok, BitVec.ofNat 64 (if s.ver.getLsbD 4 then s.config.bdBits else 0)⟩ :: s.responses
        busy := false }

/-! ## SEED -/

/-- R80, R81: SEED without an instance answers NOT_CONSTRUCTED, whatever the seed; with one, a seed with ARG[63] = 1 answers
INVALID_SEED before any truncation; nothing but the response changes. Every other seed is accepted. -/
def Obligations.SeedErrorsChangeNothing : Prop :=
  (∀ (s : State) (arg : Arg), s.configured = false →
    exec (.seed arg) s = .next { s with responses := ⟨.notConstructed, 0⟩ :: s.responses, busy := false }) ∧
  ∀ (s : State) (arg : Arg) (v : Version), s.configured = true → versionOf s.ver = some v →
    (arg.getLsbD 63 = true →
      exec (.seed arg) s = .next { s with responses := ⟨.invalidSeed, 0⟩ :: s.responses, busy := false }) ∧
    (arg.getLsbD 63 = false →
      ∃ t : State, exec (.seed arg) s = .next t ∧ t.responses = ⟨.ok, 0⟩ :: s.responses)

/-- R84: on an unwrapped LCG version SEED loads S[0] with the low BITS bits of the operand and answers (OK, 0), and the first
output is `(A * v + C) mod 2^BITS`. All else stays, but for S[1] to S[3], which no LCG uses (R22 leaves them open). -/
def Obligations.SeedLcgLoadsSeed : Prop :=
  ∀ (s : State) (arg : Arg) (v : Version), s.configured = true → versionOf s.ver = some v → v.wrapped = false →
    arg.toNat < 2 ^ 63 →
    ∀ A C : Nat, (v.raw = .lcg16 ∧ A = s.config.lcg16A.toNat ∧ C = s.config.lcg16C.toNat ∨
        v.raw = .lcg26 ∧ A = s.config.lcg26A.toNat ∧ C = s.config.lcg26C.toNat ∨
        v.raw = .lcg32 ∧ A = 121525 ∧ C = 386076519) →
    ∃ t : State, exec (.seed arg) s = .next t ∧
      t = { s with
        s0 := BitVec.ofNat 32 (arg.toNat % 2 ^ v.bits), s1 := t.s1, s2 := t.s2, s3 := t.s3
        responses := ⟨.ok, 0⟩ :: s.responses, busy := false } ∧
      ((nextRaw v.raw t).1).toNat = (A * (arg.toNat % 2 ^ v.bits) + C) % 2 ^ v.bits

/-- R93: on an unwrapped xorshift32 version SEED loads S[0] with the low 32 bits of the operand, 1 in place of 0. Every
multiple of 2^32 is as seed 1, wrapped or not. S[1] to S[3], unused, are left open (R22). -/
def Obligations.SeedXs32ReplacesZero : Prop :=
  (∀ (s : State) (x : Word), (seedRaw .xs32 x s).s0 = if x = 0 then 1 else x) ∧
  (∀ (s : State) (arg : Arg) (v : Version), s.configured = true → versionOf s.ver = some v → v.wrapped = false →
    v.raw = .xs32 → arg.toNat < 2 ^ 63 →
    ∃ t : State, exec (.seed arg) s = .next t ∧
      t = { s with
        s0 := if arg.toNat % 2 ^ 32 = 0 then 1 else BitVec.ofNat 32 (arg.toNat % 2 ^ 32)
        s1 := t.s1, s2 := t.s2, s3 := t.s3
        responses := ⟨.ok, 0⟩ :: s.responses, busy := false }) ∧
  ∀ (s : State) (arg : Arg) (v : Version), s.configured = true → versionOf s.ver = some v → v.raw = .xs32 →
    arg.toNat < 2 ^ 63 → arg.toNat % 2 ^ 32 = 0 → exec (.seed arg) s = exec (.seed 1) s

/-- R85: on an unwrapped xorshift128 version SEED fills the four words with four iterates of the 32-bit LCG from the low 32
bits of the operand and then discards six outputs of the recurrence of R94; with the rule's example. -/
def Obligations.SeedXs128IteratesAndWarmsUp : Prop :=
  (∀ (s : State) (arg : Arg) (v : Version), s.configured = true → versionOf s.ver = some v → v.wrapped = false →
    v.raw = .xs128 → arg.toNat < 2 ^ 63 →
    let L := fun x : Word => BitVec.ofNat 32 ((121525 * x.toNat + 386076519) % 2 ^ 32)
    let x := L (BitVec.ofNat 32 (arg.toNat % 2 ^ 32))
    let f := fun q : Word × Word × Word × Word => (q.2.1, q.2.2.1, q.2.2.2, xs128Word q.1 q.2.2.2)
    let q := f (f (f (f (f (f (x, L x, L (L x), L (L (L x))))))))
    exec (.seed arg) s = .next
      { s with
        s0 := q.1, s1 := q.2.1, s2 := q.2.2.1, s3 := q.2.2.2
        responses := ⟨.ok, 0⟩ :: s.responses, busy := false }) ∧
  ∀ s : State,
    let t := seedXs128 42 s
    (t.s0, t.s1, t.s2, t.s3) = (3656366743, 2555083836, 238746046, 365226860)

/-- R83, R112: on a wrapped version SEED first seeds the raw state, then fills the table with the next `2^BD_BITS` raw outputs,
entry 0 first, and CUR with one more; exactly `2^BD_BITS + 1` raw outputs are consumed. With the rule's example. -/
def Obligations.SeedWrappedFillsTable : Prop :=
  (∀ (s : State) (arg : Arg) (v : Version), s.configured = true → versionOf s.ver = some v → v.wrapped = true →
    arg.toNat < 2 ^ 63 →
    let g := seedRaw v.raw (BitVec.ofNat 32 (arg.toNat % 2 ^ v.bits)) s
    let outs := (rawOutputs v.raw (2 ^ s.config.bdBits + 1) g).1
    exec (.seed arg) s = .next
      { (rawOutputs v.raw (2 ^ s.config.bdBits + 1) g).2 with
        tab := outs.take (2 ^ s.config.bdBits), cur := outs.getD (2 ^ s.config.bdBits) 0
        responses := ⟨.ok, 0⟩ :: s.responses, busy := false }) ∧
  ∀ s : State, s.config.bdBits = 2 →
    (seedAll ⟨.xs128, true⟩ 42 s).tab = [2975584321, 1915941066, 2870739003, 2578514367] ∧
    (seedAll ⟨.xs128, true⟩ 42 s).cur = 4127658768

/-- R82: only the low BITS bits of a seed that is not negative matter, to SEED and to CONSTRUCT. -/
def Obligations.SeedTruncatesToWidth : Prop :=
  (∀ (s : State) (arg arg' : Arg) (v : Version), s.configured = true → versionOf s.ver = some v → arg.toNat < 2 ^ 63 →
    arg'.toNat < 2 ^ 63 → arg.toNat % 2 ^ v.bits = arg'.toNat % 2 ^ v.bits →
    exec (.seed arg) s = exec (.seed arg') s ∧
    ∃ t : State, exec (.seed arg) s = .next t ∧
      t = (seedAll v (BitVec.ofNat 32 (arg.toNat % 2 ^ v.bits)) s).issue ⟨.ok, 0⟩) ∧
  ∀ (s : State) (ver : BitVec 8) (arg arg' : Arg) (v : Version), versionOf ver = some v → arg.toNat < 2 ^ 63 →
    arg'.toNat < 2 ^ 63 → arg.toNat % 2 ^ v.bits = arg'.toNat % 2 ^ v.bits →
    exec (.construct ver arg) s = exec (.construct ver arg') s

/-! ## NEXT_RAW and the raw generators -/

/-- R86, R88, R89, R116: on an LCG version, wrapped or not, one raw step, and so NEXT_RAW, steps S[0] and returns the new
state; nothing else changes, TAB and CUR included. With R88's example. -/
def Obligations.NextRawStepsLcg : Prop :=
  (∀ (s : State) (v : Version) (A C : Nat), s.configured = true → versionOf s.ver = some v →
    (v.raw = .lcg16 ∧ A = s.config.lcg16A.toNat ∧ C = s.config.lcg16C.toNat ∨
      v.raw = .lcg26 ∧ A = s.config.lcg26A.toNat ∧ C = s.config.lcg26C.toNat ∨
      v.raw = .lcg32 ∧ A = 121525 ∧ C = 386076519) →
    nextRaw v.raw s =
      (BitVec.ofNat 32 ((A * s.s0.toNat + C) % 2 ^ v.bits),
        { s with s0 := BitVec.ofNat 32 ((A * s.s0.toNat + C) % 2 ^ v.bits) }) ∧
    exec .nextRaw s = .next
      { s with
        s0 := BitVec.ofNat 32 ((A * s.s0.toNat + C) % 2 ^ v.bits)
        responses := ⟨.ok, BitVec.ofNat 64 ((A * s.s0.toNat + C) % 2 ^ v.bits)⟩ :: s.responses
        busy := false }) ∧
  lcgStep lcg32Pair 32 0 = 386076519 ∧ lcgStep lcg32Pair 32 386076519 = 112306490

/-- R86, R91, R116: on an xorshift32 version one raw step, and so NEXT_RAW, shifts left a, right b, left c, each xored in,
and returns the new state; nothing else changes. With R91's example for the default amounts. The directions left, right,
left and the amounts (13, 17, 5) come from general knowledge, as R91 says: PRESUMED, entry 8. -/
def Obligations.NextRawStepsXs32 : Prop :=
  (∀ (s : State) (v : Version), s.configured = true → versionOf s.ver = some v → v.raw = .xs32 →
    let x := s.s0
    let x := x ^^^ (x <<< s.config.xs32Shift.a)
    let x := x ^^^ (x >>> s.config.xs32Shift.b)
    let x := x ^^^ (x <<< s.config.xs32Shift.c)
    nextRaw v.raw s = (x, { s with s0 := x }) ∧
    exec .nextRaw s = .next
      { s with s0 := x, responses := ⟨.ok, BitVec.ofNat 64 x.toNat⟩ :: s.responses, busy := false }) ∧
  Config.xs32Default = ⟨13, 17, 5⟩ ∧ xs32Step Config.xs32Default 1 = 270369

/-- R86, R94, R116: on an xorshift128 version NEXT_RAW moves the words down one place and returns the new word; nothing else
changes. With R94's example. -/
def Obligations.NextRawStepsXs128 : Prop :=
  (∀ (s : State) (v : Version), s.configured = true → versionOf s.ver = some v → v.raw = .xs128 →
    let t := s.s0 ^^^ (s.s0 <<< 11)
    let o := s.s3 ^^^ (s.s3 >>> 19) ^^^ t ^^^ (t >>> 8)
    nextRaw v.raw s = (o, { s with s0 := s.s1, s1 := s.s2, s2 := s.s3, s3 := o }) ∧
    exec .nextRaw s = .next
      { s with
        s0 := s.s1, s1 := s.s2, s2 := s.s3, s3 := o
        responses := ⟨.ok, BitVec.ofNat 64 o.toNat⟩ :: s.responses, busy := false }) ∧
  xs128Word 3656366743 365226860 = 2975584321

/-- The source's one numeric example (R86's example, 95_test_vectors.md E1): after CONSTRUCT XS128, 42 ten raw outputs. -/
def Obligations.SourceExampleOutputs : Prop :=
  ∀ s : State, (rawOutputs .xs128 10 (seedXs128 42 s)).1 =
    [2975584321, 1915941066, 2870739003, 2578514367, 4127658768, 324409786, 1476451891, 1236111477, 2281477571, 616879951]

/-- R96: every raw output is at most MASK, on xorshift32 it is never 0, and the ranges of R22 and R23 are kept; on xorshift128
an output may be 0. -/
def Obligations.RawOutputsStayInRange : Prop :=
  (∀ (a : RawAlg) (s : State), s.config.Ok → RawOk a s → OutputOk a (nextRaw a s).1 ∧ RawOk a (nextRaw a s).2) ∧
  ∃ s : State, RawOk .xs128 s ∧ (nextRaw .xs128 s).1 = 0

/-- R97: every admissible LCG pair, the 32-bit one among them, is within its width and has full period: from any start value
the recurrence meets every value, and returns to its start after exactly 2^BITS steps and not before. -/
def Obligations.LcgHasFullPeriod : Prop :=
  ∀ c : Config, c.Ok → ∀ (ac : Nat × Nat) (bits : Nat),
    (ac = lcg16Pair c ∧ bits = 16 ∨ ac = lcg26Pair c ∧ bits = 26 ∨ ac = (121525, 386076519) ∧ bits = 32) →
    (1 ≤ ac.1 ∧ ac.1 < 2 ^ bits ∧ ac.2 < 2 ^ bits ∧ ac.2 % 2 = 1 ∧ ac.1 % 4 = 1) ∧
    ∀ x : Word, x.toNat < 2 ^ bits →
      (∀ y : Word, y.toNat < 2 ^ bits → ∃ k < 2 ^ bits, (lcgStep ac bits)^[k] x = y) ∧
      (lcgStep ac bits)^[2 ^ bits] x = x ∧ ∀ k, 0 < k → k < 2 ^ bits → (lcgStep ac bits)^[k] x ≠ x

/-- R100: for every triple of amounts in 1 .. 31 the map of R91 is a permutation of the words, takes 0 to 0 and no other word
to 0; for every admissible triple (Config.Ok asks the one cycle of R100 of it) it runs from any word but 0 through all of
them, and is back at its start after exactly 2^32 - 1 steps and not before. That the default (13, 17, 5), PRESUMED, entry 8,
is admissible is part of BuildParametersAreAdmissible. -/
def Obligations.Xs32StepPermutesWords : Prop :=
  (∀ sh : Xs32Shift, 1 ≤ sh.a ∧ sh.a ≤ 31 → 1 ≤ sh.b ∧ sh.b ≤ 31 → 1 ≤ sh.c ∧ sh.c ≤ 31 →
    Function.Bijective (xs32Step sh) ∧ xs32Step sh 0 = 0 ∧ ∀ x : Word, x ≠ 0 → xs32Step sh x ≠ 0) ∧
  ∀ c : Config, c.Ok → ∀ x : Word, x ≠ 0 →
    (∀ y : Word, y ≠ 0 → ∃ k < 2 ^ 32 - 1, (xs32Step c.xs32Shift)^[k] x = y) ∧
    (xs32Step c.xs32Shift)^[2 ^ 32 - 1] x = x ∧
    ∀ k, 0 < k → k < 2 ^ 32 - 1 → (xs32Step c.xs32Shift)^[k] x ≠ x

/-- R95 (a), (b): the map of R94 on the four words is linear over GF(2) and invertible, so the zero state is a fixed point that
no other state reaches and that seeding never produces; after four or more outputs the state is the last four outputs. -/
def Obligations.Xs128StepIsLinearAndInvertible : Prop :=
  let f := fun q : Word × Word × Word × Word => (q.2.1, q.2.2.1, q.2.2.2, xs128Word q.1 q.2.2.2)
  (∀ s : State, (nextRaw .xs128 s).2 =
    s.setWords (f (s.s0, s.s1, s.s2, s.s3)).1 (f (s.s0, s.s1, s.s2, s.s3)).2.1
      (f (s.s0, s.s1, s.s2, s.s3)).2.2.1 (f (s.s0, s.s1, s.s2, s.s3)).2.2.2) ∧
  (∀ p q : Word × Word × Word × Word,
    f (p.1 ^^^ q.1, p.2.1 ^^^ q.2.1, p.2.2.1 ^^^ q.2.2.1, p.2.2.2 ^^^ q.2.2.2) =
      ((f p).1 ^^^ (f q).1, (f p).2.1 ^^^ (f q).2.1, (f p).2.2.1 ^^^ (f q).2.2.1, (f p).2.2.2 ^^^ (f q).2.2.2)) ∧
  Function.Bijective f ∧ f (0, 0, 0, 0) = (0, 0, 0, 0) ∧ (∀ q, f q = (0, 0, 0, 0) → q = (0, 0, 0, 0)) ∧
  (∀ (x : Word) (s : State), RawOk .xs128 (seedXs128 x s)) ∧
  ∀ (s : State) (k : Nat), 4 ≤ k →
    let t := (rawOutputs .xs128 k s).2
    (rawOutputs .xs128 k s).1.drop (k - 4) = [t.s0, t.s1, t.s2, t.s3]

/-- R98, R210: after re-seeding with one value, any sequence of `get()` and `next_raw()` calls gives the same outputs, whatever
the state was before; only the version, the seed and the parameters matter. -/
def Obligations.ReplayAfterSeedingRepeats : Prop :=
  ∀ (v : Version) (x : Word) (s s' : State) (calls : List Bool), s.config = s'.config →
    replay v calls (seedAll v x s) = replay v calls (seedAll v x s')

/-! ## GET -/

/-- R113, R114, R111: on a wrapped version GET returns CUR, takes as the new CUR the table entry its low BD_BITS bits select,
and refills that entry with a fresh raw output, the entry read before it is written; nothing else changes but the state
words, by one raw step. In a state of the invariant the index is in range and the result at most MASK. -/
def Obligations.GetWrappedUsesTable : Prop :=
  ∀ (s : State) (v : Version), s.configured = true → versionOf s.ver = some v → v.wrapped = true →
    let i := s.cur.toNat % 2 ^ s.config.bdBits
    let o := (nextRaw v.raw s).1
    let g := (nextRaw v.raw s).2
    exec .get s = .next
      { s with
        s0 := g.s0, s1 := g.s1, s2 := g.s2, s3 := g.s3
        cur := s.tab.getD i 0, tab := s.tab.set i o
        responses := ⟨.ok, BitVec.ofNat 64 s.cur.toNat⟩ :: s.responses, busy := false } ∧
    (s.Inv → i < s.tab.length ∧ s.cur.toNat < 2 ^ v.bits)

/-- R115: on an unwrapped version GET is NEXT_RAW, and completes as it does: TAB and CUR are neither read nor written. -/
def Obligations.GetUnwrappedIsNextRaw : Prop :=
  ∀ (s : State) (v : Version), s.configured = true → versionOf s.ver = some v → v.wrapped = false →
    exec .get s = exec .nextRaw s ∧
    ∃ t : State, exec .get s = .next t ∧ t.tab = s.tab ∧ t.cur = s.cur ∧
      ∀ (tab : List Word) (cur : Word), exec .get { s with tab := tab, cur := cur } = .next { t with tab := tab, cur := cur }

/-- R118: on a wrapped version the outputs held before a `get()` with the fresh raw output are, each as often, the output it
returns with the outputs held after it: nothing is lost and nothing returned twice. -/
def Obligations.GetConservesHeldOutputs : Prop :=
  ∀ (s : State) (v : Version), v.wrapped = true → s.tab.length = 2 ^ s.config.bdBits →
    ((getOutput v s).1 :: (getOutput v s).2.cur :: (getOutput v s).2.tab).Perm
      ((nextRaw v.raw s).1 :: s.cur :: s.tab)

/-! ## SHUFFLE -/

/-- R130, R131: with an instance, SHUFFLE answers SEQUENCE_TOO_LONG exactly when ARG > NSTATES = 2^BITS; every other length, NSTATES
itself included, starts the controller with N = ARG, J = 1, B = 1, HI = 2 and BUSY = 1, nothing else changed and no
response yet. -/
def Obligations.ShuffleGuardsLengthAndStarts : Prop :=
  ∀ (s : State) (arg : Arg) (v : Version), s.configured = true → versionOf s.ver = some v →
    (2 ^ v.bits < arg.toNat → exec (.shuffle arg) s =
      .next { s with responses := ⟨.sequenceTooLong, 0⟩ :: s.responses, busy := false }) ∧
    (arg.toNat ≤ 2 ^ v.bits → ∃ t : State, exec (.shuffle arg) s = .next t ∧ t.n.toNat = arg.toNat ∧
      t = { s with n := t.n, j := 1, b := 1, hi := 2, busy := true, phase := .loop })

/-- R142: while BUSY is 1 and the host is held off, a step is the action of the controller's phase, and nothing else changes. -/
def Obligations.ControllerFollowsPhaseTable : Prop :=
  ∀ s : State, s.busy = true → HostHeldOff s.host →
    (s.phase = .loop → s.n.toNat ≤ s.j.toNat → step s =
      .next { s with responses := ⟨.ok, 0⟩ :: s.responses, busy := false }) ∧
    (s.phase = .loop → s.j.toNat < s.n.toNat → step s = .next { s with phase := .width }) ∧
    (s.phase = .width → s.j = s.hi → step s = .next { s with b := s.b + 1, hi := 2 * s.hi, phase := .draw }) ∧
    (s.phase = .width → s.j ≠ s.hi → step s = .next { s with phase := .draw }) ∧
    (s.phase = .draw → ∀ v, s.configured = true → versionOf s.ver = some v →
      let o := (getOutput v s).1
      let g := (getOutput v s).2
      step s = .next
        { s with
          s0 := g.s0, s1 := g.s1, s2 := g.s2, s3 := g.s3, tab := g.tab, cur := g.cur
          r := BitVec.ofNat 32 (o.toNat / 2 ^ (v.bits - s.b.toNat)), phase := .test }) ∧
    (s.phase = .test → s.r.toNat ≤ s.j.toNat → step s = .next { s with phase := .rdR }) ∧
    (s.phase = .test → s.j.toNat < s.r.toNat → step s = .next { s with phase := .draw }) ∧
    (s.phase = .rdR → step s = .next { s with t0 := s.memRead s.r.toNat, phase := .rdJ }) ∧
    (s.phase = .rdJ → step s = .next { s with t1 := s.memRead s.j.toNat, phase := .wrJ }) ∧
    (s.phase = .wrJ → step s = .next { s with seq := s.seq.write s.j.toNat s.t0, phase := .wrR }) ∧
    (s.phase = .wrR → step s =
      .next { s with seq := s.seq.write s.r.toNat s.t1, j := s.j + 1, phase := .loop })

/-- R136: from an accepted draw the controller makes four steps, read R, read J, write J, write R: afterwards elements R and J
are exchanged, no other element is changed, R = J included, and nothing but T0, T1, J and the phase differs. -/
def Obligations.SwapExchangesTwoElements : Prop :=
  ∀ s : State, s.seq.wf → s.busy = true → HostHeldOff s.host → s.phase = .rdR →
    runSteps 1 s = .next { s with t0 := s.memRead s.r.toNat, phase := .rdJ } ∧
    runSteps 2 s = .next { s with t0 := s.memRead s.r.toNat, t1 := s.memRead s.j.toNat, phase := .wrJ } ∧
    runSteps 3 s = .next
      { s with
        t0 := s.memRead s.r.toNat, t1 := s.memRead s.j.toNat, phase := .wrR
        seq := s.seq.write s.j.toNat (s.memRead s.r.toNat) } ∧
    ∃ t : State, runSteps 4 s = .next t ∧
      (∀ i : Nat, t.memRead i =
        if i = s.j.toNat then s.memRead s.r.toNat
        else if i = s.r.toNat then s.memRead s.j.toNat
        else s.memRead i) ∧
      t = { s with
        t0 := s.memRead s.r.toNat, t1 := s.memRead s.j.toNat, j := s.j + 1, phase := .loop, seq := t.seq }

/-- R137: a SHUFFLE of 0 or 1 elements answers OK at its first step, with no draw and no element touched; one of 2 elements makes
exactly one draw, which is 0 or 1 and is accepted, and answers after it. -/
def Obligations.ShortShufflesDrawLittle : Prop :=
  ∀ (s : State) (v : Version), s.Inv → s.configured = true → versionOf s.ver = some v → HostHeldOff s.host →
    (∀ arg : Arg, arg.toNat ≤ 1 → ∃ s1 t : State, exec (.shuffle arg) s = .next s1 ∧ step s1 = .next t ∧
      t = { s with
        n := t.n, j := t.j, b := t.b, hi := t.hi, phase := t.phase
        responses := ⟨.ok, 0⟩ :: s.responses, busy := false }) ∧
    ∃ s1 t : State, exec (.shuffle 2) s = .next s1 ∧ runSteps 9 s1 = .next t ∧ t.r.toNat ≤ 1 ∧
      (∀ i : Nat, t.memRead i = s.memRead (Equiv.swap t.r.toNat 1 i)) ∧
      t = { (getOutput v s).2 with
        n := t.n, j := t.j, b := t.b, hi := t.hi, r := t.r, t0 := t.t0, t1 := t.t1, phase := t.phase, seq := t.seq
        responses := ⟨.ok, 0⟩ :: s.responses, busy := false }

/-- R130, R142: SHUFFLE and R130 written as one function are the same. Whenever R130, under some fuel for its draws, ends, the
controller ends too, with that generator and that SEQ and the response (OK, 0); and whenever the controller ends, R130
does, with the same result. -/
def Obligations.ControllerRefinesWholeShuffle : Prop :=
  ∀ (s : State) (v : Version) (arg : Arg), s.Inv → s.configured = true → versionOf s.ver = some v → s.host = [] →
    arg.toNat ≤ v.nstates →
    ∃ s1 : State, exec (.shuffle arg) s = .next s1 ∧
      (∀ (fuel : Nat) (g : State), shuffleWhole v fuel arg.toNat s = some g →
        ∃ (k : Nat) (t : State), runSteps k s1 = .next t ∧
          t = { g with
            n := t.n, j := t.j, b := t.b, hi := t.hi, r := t.r, t0 := t.t0, t1 := t.t1, phase := t.phase
            responses := ⟨.ok, 0⟩ :: s.responses, busy := false }) ∧
      ∀ (k : Nat) (t : State), runSteps k s1 = .next t → t.busy = false →
        ∃ (fuel : Nat) (g : State), shuffleWhole v fuel arg.toNat s = some g ∧
          t = { g with
            n := t.n, j := t.j, b := t.b, hi := t.hi, r := t.r, t0 := t.t0, t1 := t.t1, phase := t.phase
            responses := ⟨.ok, 0⟩ :: s.responses, busy := false }

/-- R140: when SHUFFLE has answered, SEQ holds a permutation of what it held: one permutation of the positions, which moves
none at or beyond n and is fixed by the generator and n alone. Any other block with the same generator ends its SHUFFLE in
as many steps, and its elements, whatever they are, end where that permutation takes them. -/
def Obligations.ShufflePermutesPositions : Prop :=
  ∀ (s s1 t : State) (v : Version) (arg : Arg) (k : Nat), s.Inv → s.host = [] → versionOf s.ver = some v →
    exec (.shuffle arg) s = .next s1 → s1.busy = true → runSteps k s1 = .next t → t.busy = false →
    ∃ σ : Equiv.Perm Nat, (∀ i, arg.toNat ≤ i → σ i = i) ∧ (∀ i, t.memRead i = s.memRead (σ i)) ∧
      ∀ s' : State, s'.seq.wf → s'.host = [] → s'.configured = true → s'.ver = s.ver → SameGenerator v s s' →
        ∃ s1' t' : State, exec (.shuffle arg) s' = .next s1' ∧ runSteps k s1' = .next t' ∧ t'.busy = false ∧
          ∀ i, t'.memRead i = s'.memRead (σ i)

/-- R138: at every moment of a SHUFFLE the generator is where one `get()` for each draw step taken so far leaves it, accepted
or rejected, and nothing else has advanced it; when SHUFFLE has answered there were at least n - 1 draws. -/
def Obligations.ShuffleConsumesOneGetPerDraw : Prop :=
  ∀ (s s1 t : State) (v : Version) (arg : Arg) (k : Nat), s.host = [] → versionOf s.ver = some v →
    exec (.shuffle arg) s = .next s1 → s1.busy = true → runSteps k s1 = .next t →
    (t.s0, t.s1, t.s2, t.s3, t.tab, t.cur) =
      ((getOutputs v (drawSteps k s1) s).2.s0, (getOutputs v (drawSteps k s1) s).2.s1,
        (getOutputs v (drawSteps k s1) s).2.s2, (getOutputs v (drawSteps k s1) s).2.s3,
        (getOutputs v (drawSteps k s1) s).2.tab, (getOutputs v (drawSteps k s1) s).2.cur) ∧
    (t.busy = false → arg.toNat - 1 ≤ drawSteps k s1)

/-- R139, 93_implementation_defined.md U3: if no draw is ever acceptable the command never answers: after any number of steps
BUSY is still 1, no response has come, and SEQ is as it was. -/
def Obligations.EndlessShuffleStaysBusy : Prop :=
  ∀ (s : State) (v : Version), s.busy = true → s.phase = .draw → s.host = [] → s.configured = true →
    versionOf s.ver = some v →
    (∀ k : Nat, s.j.toNat < (drawOf v.bits s.b.toNat (getOutput v (getOutputs v k s).2).1).toNat) →
    ∀ m : Nat, ∃ t : State, runSteps m s = .next t ∧ t.busy = true ∧ t.responses = s.responses ∧ t.seq = s.seq

/-- R139, by R97 and R100: on the unwrapped LCG and xorshift32 versions every SHUFFLE of an admissible length ends. -/
def Obligations.LcgAndXs32ShufflesEnd : Prop :=
  ∀ (s : State) (v : Version) (arg : Arg), s.Inv → s.host = [] → s.configured = true → versionOf s.ver = some v →
    v.wrapped = false → (v.raw = .lcg16 ∨ v.raw = .lcg26 ∨ v.raw = .lcg32 ∨ v.raw = .xs32) → arg.toNat ≤ v.nstates →
    ∃ (s1 : State) (k : Nat) (t : State), exec (.shuffle arg) s = .next s1 ∧ runSteps k s1 = .next t ∧
      t.busy = false ∧ t.responses = ⟨.ok, 0⟩ :: s.responses

/-! ## Errors and responses -/

/-- R185: without an instance SEED, NEXT_RAW, GET, SHUFFLE and RDCFG of the selectors 0 to 4 answer NOT_CONSTRUCTED; CONSTRUCT, NOP
and RDCFG STATUS never do. -/
def Obligations.NotConstructedAnswered : Prop :=
  (∀ s : State, s.configured = false →
    ∀ i : Instr, ((∃ arg, i = .seed arg) ∨ i = .nextRaw ∨ i = .get ∨ (∃ arg, i = .shuffle arg) ∨
        ∃ sel : BitVec 8, sel.toNat ≤ 4 ∧ i = .rdcfg sel) →
      exec i s = .next { s with responses := ⟨.notConstructed, 0⟩ :: s.responses, busy := false }) ∧
  ∀ (s : State) (i : Instr), ((∃ ver arg, i = .construct ver arg) ∨ i = .nop ∨ i = .rdcfg 5) →
    ∃ (t : State) (r : Response), exec i s = .next t ∧ t.responses = r :: s.responses ∧ r.status ≠ .notConstructed

/-- R187, R188: whatever command word and operand are presented, if the answer is an error then the data is 0 and nothing but
the response port and BUSY has changed. -/
def Obligations.ErrorsHaveNoEffect : Prop :=
  ∀ (c : Command) (s t : State) (r : Response), acceptCommand c s = .next t → t.responses = r :: s.responses → r.status ≠ .ok →
    r.rdata = 0 ∧ t = { s with responses := r :: s.responses, busy := false }

/-- R186: of the errors that hold for a presented command the first in the order IllegalCommand, NotConstructed,
UnsupportedVersion, InvalidSeed, SequenceTooLong is the one reported, and when none holds none is. -/
def Obligations.FirstErrorIsReported : Prop :=
  ∀ (s : State) (c : Command), (s.configured = true → supported s.ver = true) →
    let needs := fun i : Instr => (∃ arg, i = .seed arg) ∨ i = .nextRaw ∨ i = .get ∨ (∃ arg, i = .shuffle arg) ∨
      ∃ sel : BitVec 8, sel.toNat ≤ 4 ∧ i = .rdcfg sel
    let illegal := ∃ e, decode c = .error e
    let notConstructed := s.configured = false ∧ ∃ i, decode c = .ok i ∧ needs i
    let unsupported := ∃ ver arg, decode c = .ok (.construct ver arg) ∧ supported ver = false
    let invalidSeed := seedValue c.arg < 0 ∧ ∃ arg, decode c = .ok (.seed arg) ∨ ∃ ver, decode c = .ok (.construct ver arg)
    let tooLong := ∃ arg v, decode c = .ok (.shuffle arg) ∧ versionOf s.ver = some v ∧ v.nstates < arg.toNat
    let answers := fun st : Status => acceptCommand c s = .next { s with responses := ⟨st, 0⟩ :: s.responses, busy := false }
    (illegal → answers .illegalCommand) ∧
    (¬illegal → notConstructed → answers .notConstructed) ∧
    (¬illegal → ¬notConstructed → unsupported → answers .unsupportedVersion) ∧
    (¬illegal → ¬notConstructed → ¬unsupported → invalidSeed → answers .invalidSeed) ∧
    (¬illegal → ¬notConstructed → ¬unsupported → ¬invalidSeed → tooLong → answers .sequenceTooLong) ∧
    (¬illegal → ¬notConstructed → ¬unsupported → ¬invalidSeed → ¬tooLong →
      ∃ t : State, acceptCommand c s = .next t ∧
        (t.responses = s.responses ∨ ∃ d, t.responses = ⟨.ok, d⟩ :: s.responses))

/-- R60: every command produces exactly one response: each but a SHUFFLE that starts answers in its own step and leaves the
block free; a SHUFFLE that starts leaves it busy with no response, and its controller gives exactly one, (OK, 0), in the
step in which BUSY falls. -/
def Obligations.OneResponsePerCommand : Prop :=
  (∀ (i : Instr) (s t : State), exec i s = .next t →
    (t.busy = false ∧ ∃ r, t.responses = r :: s.responses) ∨
    (t.busy = true ∧ t.responses = s.responses ∧ ∃ arg, i = .shuffle arg)) ∧
  ∀ s t : State, s.busy = true → HostHeldOff s.host → step s = .next t →
    t.host = s.host ∧
    ((t.busy = true ∧ t.responses = s.responses) ∨ (t.busy = false ∧ t.responses = ⟨.ok, 0⟩ :: s.responses))

/-- R196, R205: between commands the block holds its state; while BUSY is 1 a presented command is neither executed nor
answered but held off, and the step is the controller's; a host that does nothing lets the controller go on. That a host
store while BUSY is 1 is held off too, at any index, is the model's choice (entry 14, DEDUCED): R50 and R206 only give the
host no such move within the sequence. -/
def Obligations.HostIsHeldOffWhileBusy : Prop :=
  (∀ s : State, s.busy = false → s.host = [] → step s = .next s) ∧
  (∀ (s : State) (rest : List HostMove), s.busy = false → s.host = .wait :: rest → step s = .next { s with host := rest }) ∧
  (∀ s : State, s.busy = true → s.host = [] → step s = controllerStep s) ∧
  (∀ (s : State) (rest : List HostMove), s.busy = true → s.host = .wait :: rest →
    step s = controllerStep { s with host := rest }) ∧
  ∀ (s : State) (m : HostMove) (rest : List HostMove), s.busy = true → s.host = m :: rest → m ≠ .wait → m ≠ .reset →
    step s = controllerStep s ∧ ∀ t, step s = .next t → t.host = m :: rest

/-! ## Who writes what -/

/-- R25: CONFIGURED is 0 after reset, a successful CONSTRUCT sets it, nothing but reset clears it, and nothing else sets it. -/
def Obligations.OnlyResetClearsConfigured : Prop :=
  State.reset.configured = false ∧
  (∀ (s : State) (ver : BitVec 8) (arg : Arg), supported ver = true → arg.toNat < 2 ^ 63 →
    ∃ t : State, exec (.construct ver arg) s = .next t ∧ t.configured = true) ∧
  (∀ s t : State, step s = .next t → s.configured = true → t.configured = false → ∃ rest, s.host = .reset :: rest) ∧
  ∀ s t : State, step s = .next t → s.configured = false → t.configured = true →
    ∃ c rest ver arg, s.host = .command c :: rest ∧ decode c = .ok (.construct ver arg) ∧ supported ver = true ∧
      arg.toNat < 2 ^ 63

/-- R24: VER is written by a successful CONSTRUCT and by nothing else, reset apart, after which it holds no defined value and
CONFIGURED is 0. -/
def Obligations.OnlyConstructWritesVer : Prop :=
  ∀ s t : State, step s = .next t → t.ver ≠ s.ver →
    (∃ rest, s.host = .reset :: rest ∧ t.configured = false) ∨
    ∃ c rest ver arg, s.host = .command c :: rest ∧ decode c = .ok (.construct ver arg) ∧ supported ver = true ∧
      arg.toNat < 2 ^ 63 ∧ t.ver = ver

/-- R21, R26, R27, R116: the state words are written by the four commands that seed or draw and by the controller's draws, and
by nothing else but reset; TAB and CUR by those of them that go through the decorrelation stage, on a wrapped version. -/
def Obligations.GeneratorHasFewWriters : Prop :=
  ∀ s t : State, step s = .next t → (∀ rest, s.host ≠ .reset :: rest) →
    ((t.s0, t.s1, t.s2, t.s3) ≠ (s.s0, s.s1, s.s2, s.s3) →
      (s.busy = true ∧ s.phase = .draw) ∨
      (s.busy = false ∧ ∃ c rest i, s.host = .command c :: rest ∧ decode c = .ok i ∧
        ((∃ ver arg, i = .construct ver arg) ∨ (∃ arg, i = .seed arg) ∨ i = .nextRaw ∨ i = .get))) ∧
    ((t.tab, t.cur) ≠ (s.tab, s.cur) →
      bdField t.ver = true ∧
      ((s.busy = true ∧ s.phase = .draw) ∨
      (s.busy = false ∧ ∃ c rest i, s.host = .command c :: rest ∧ decode c = .ok i ∧
        ((∃ ver arg, i = .construct ver arg) ∨ (∃ arg, i = .seed arg) ∨ i = .get))))

/-- R43, R136: an element of SEQ changes only in the two writing phases of a SHUFFLE, at index J and at index R, both within the
sequence, and by a host store between commands; no command's own step changes SEQ. That no reset changes it, one during a
SHUFFLE neither, where R202 calls the contents unspecified, is the model's reading (entry 6, DEDUCED), and so is that no
host store is made while BUSY is 1 (entry 14, DEDUCED). -/
def Obligations.OnlyShuffleReachesSeq : Prop :=
  (∀ (i : Instr) (s t : State), exec i s = .next t → t.seq = s.seq) ∧
  ∀ s t : State, s.Inv → step s = .next t → ∀ i : Nat, t.memRead i ≠ s.memRead i →
    (s.busy = true ∧ s.phase = .wrJ ∧ i = s.j.toNat ∧ i < s.n.toNat) ∨
    (s.busy = true ∧ s.phase = .wrR ∧ i = s.r.toNat ∧ i < s.n.toNat) ∨
    (s.busy = false ∧ ∃ k x rest, s.host = .store k x :: rest ∧ i = k.toNat)

/-- R41, R52, R140: the block never inspects elements: two states that differ only in the elements of SEQ, and in the two being
moved, step alike, and still differ in nothing else. -/
def Obligations.ElementsNeverInfluence : Prop :=
  ∀ s s' : State, SameButElements s s' →
    (∀ t, step s = .next t → ∃ t', step s' = .next t' ∧ SameButElements t t') ∧
    (∀ r, step s = .fault r → step s' = .fault r)

/-- R31: no step changes the parameters of the build. -/
def Obligations.ParametersNeverChange : Prop :=
  ∀ s t : State, step s = .next t → t.config = s.config

/-- R48, R203: a host store between commands replaces one element and changes nothing else; the element is ELEM_W bits wide. -/
def Obligations.HostStoreWritesOneElement : Prop :=
  ∀ (s : State) (i : BitVec 32) (x : Elem) (rest : List HostMove), s.seq.wf → s.busy = false →
    s.host = .store i x :: rest → x < 2 ^ s.config.elemW →
    ∃ t : State, step s = .next t ∧ t = { s with host := rest, seq := t.seq } ∧
      ∀ k : Nat, t.memRead k = if k = i.toNat then x else s.memRead k

/-! ## Reset and the invariant -/

/-- R33, R201: what the spec gives of the state after reset. (The other registers' values are the model's choice, entries 4
and 5, and are not stated; the shift amounts are the named parameter's default, PRESUMED, entry 8.) -/
def Obligations.ResetStateIsUnconfigured : Prop :=
  State.reset.configured = false ∧ State.reset.busy = false ∧ State.reset.host = [] ∧ State.reset.responses = [] ∧
  State.reset.config.xs32Shift = ⟨13, 17, 5⟩ ∧
  ∀ w : Nat, (decodeTableWord 32 w = some .nextRaw ∨ decodeTableWord 32 w = some .get) →
    ∃ t : State, step (State.reset.withFetchWord 32 w) = .next t ∧ t.responses = [⟨.notConstructed, 0⟩]

/-- R200, R202: reset may come at any time. A command in progress is abandoned without a response, CONFIGURED and BUSY are 0, the
writes already made to SEQ stay made (that the model fixes SEQ's contents then is its entry 6). -/
def Obligations.ResetAbandonsCommand : Prop :=
  ∀ (s : State) (rest : List HostMove), s.host = .reset :: rest →
    ∃ t : State, step s = .next t ∧ t.configured = false ∧ t.busy = false ∧ t.responses = s.responses ∧
      t.seq = s.seq ∧ t.config = s.config ∧ t.host = rest

/-- The invariant holds after reset (that the registers without a value in the spec are zero is the model's choice, entry 4). -/
def Obligations.ResetStateMeetsInvariant : Prop := State.reset.Inv

/-- R22, R23, R26, R27, R28, R34, R41, R96, R133 to R136: every step from a state of the invariant leads to one. -/
def Obligations.StepKeepsInvariant : Prop :=
  ∀ s t : State, s.Inv → step s = .next t → t.Inv

/-- R6, R60, R70: from a state of the invariant every step answers a next state: whatever command is presented, the block neither
faults nor refuses. No state at all makes it refuse. -/
def Obligations.StepAlwaysAnswers : Prop :=
  (∀ s : State, s.Inv → ∃ t : State, step s = .next t) ∧ ∀ (s : State) (r : Refusal), step s ≠ .refused r

/-- R7, R97, R100: the parameters of the build meet the spec's constraints, the one cycle that R100 asks of XS32_SHIFT among
them (that the triple is (13, 17, 5) is PRESUMED, entry 8); and the form they are built in shuts no admissible LCG pair out:
every pair of R97's residues is some choice of the free high bits (that the parameters stand in this form is the model's
choice, entry 7). -/
def Obligations.BuildParametersAreAdmissible : Prop :=
  Config.build.Ok ∧
  (∀ A C : BitVec 16, A.toNat % 4 = 1 → C.toNat % 2 = 1 →
    ∃ (a : BitVec 14) (c : BitVec 15), a ++ 1#2 = A ∧ c ++ 1#1 = C) ∧
  ∀ A C : BitVec 26, A.toNat % 4 = 1 → C.toNat % 2 = 1 →
    ∃ (a : BitVec 24) (c : BitVec 25), a ++ 1#2 = A ∧ c ++ 1#1 = C

/-! ## The outcome codes -/

/-- R68, R180: the numbers of the six outcomes, which are the only ones; each error is answered with its own; and an error of
each kind comes only from the commands the table names for it. -/
def Obligations.OutcomesHaveTheRulesNumbers : Prop :=
  ((Status.ok.code.toNat, Status.invalidSeed.code.toNat, Status.unsupportedVersion.code.toNat) = (0, 1, 2) ∧
    (Status.sequenceTooLong.code.toNat, Status.illegalCommand.code.toNat, Status.notConstructed.code.toNat) = (3, 4, 5)) ∧
  (∀ st : Status, st.code.toNat ≤ 5) ∧
  (∀ (s t : State) (e : Error), raise e s = .next t → ∃ r : Response, t.responses = r :: s.responses ∧ r.rdata = 0 ∧
    r.status.code.toNat = match e with
      | .invalidSeed => 1
      | .unsupportedVersion => 2
      | .sequenceTooLong => 3
      | .illegalCommand => 4
      | .notConstructed => 5) ∧
  ∀ (c : Command) (s t : State) (r : Response), acceptCommand c s = .next t → t.responses = r :: s.responses →
    (r.status.code.toNat = 1 → ∃ arg, decode c = .ok (.seed arg) ∨ ∃ ver, decode c = .ok (.construct ver arg)) ∧
    (r.status.code.toNat = 2 → ∃ ver arg, decode c = .ok (.construct ver arg)) ∧
    (r.status.code.toNat = 3 → ∃ arg, decode c = .ok (.shuffle arg)) ∧
    (r.status.code.toNat = 4 → ∃ e, decode c = .error e) ∧
    (r.status.code.toNat = 5 → ∃ i, decode c = .ok i ∧ ((∃ arg, i = .seed arg) ∨ i = .nextRaw ∨ i = .get ∨
      (∃ arg, i = .shuffle arg) ∨ ∃ sel : BitVec 8, sel.toNat ≤ 4 ∧ i = .rdcfg sel))
end

