-- ==== Sys2Proof/Laws/Operands.lean ====
section
/-! SUPPORT. What the operand readings give: the sign of a seed, the bounds of a width, a truncated seed, a draw and a table
index, and the wrapper bit of a version. -/

namespace Sys2Proof.Machine

/-- The sign bit as a bound on the operand (R62). -/
theorem seedNegative_iff (arg : Arg) : seedNegative arg = true ↔ 2 ^ 63 ≤ arg.toNat := by
  unfold seedNegative
  rw [BitVec.getLsbD, Nat.testBit_eq_decide_div_mod_eq]
  have := arg.isLt
  simp
  omega

theorem seedNegative_of_lt {arg : Arg} (h : arg.toNat < 2 ^ 63) : seedNegative arg = false := by
  rw [Bool.eq_false_iff, Ne, seedNegative_iff]
  omega

theorem Version.bits_le (v : Version) : v.bits ≤ 32 := by
  obtain ⟨a, w⟩ := v
  cases a <;> simp [Version.bits, RawAlg.bits]

theorem Version.one_le_bits (v : Version) : 1 ≤ v.bits := by
  obtain ⟨a, w⟩ := v
  cases a <;> simp [Version.bits, RawAlg.bits]

theorem Version.nstates_le (v : Version) : v.nstates ≤ 2 ^ 32 := Nat.pow_le_pow_right (by decide) v.bits_le

/-- The wrapper of a version is bit 4 of its identifier (R65, R66). -/
theorem versionOf_wrapped {ver : BitVec 8} {v : Version} (h : versionOf ver = some v) : v.wrapped = bdField ver := by
  unfold versionOf at h
  split at h
  · obtain ⟨a, -, rfl⟩ := Option.map_eq_some_iff.mp h
    rfl
  · cases h

/-- A truncated seed lies below 2^BITS (R82). -/
theorem seedLow_lt (v : Version) (arg : Arg) : (seedLow v arg).toNat < 2 ^ v.bits := by
  simp only [seedLow, BitVec.toNat_ofNat]
  exact lt_of_le_of_lt (Nat.mod_le _ _) (Nat.mod_lt _ (Nat.two_pow_pos _))

/-- A table index lies inside a table of `2^BD_BITS` entries (R111). -/
theorem tabIndex_lt (c : Config) (o : Word) : tabIndex c o < 2 ^ c.bdBits := Nat.mod_lt _ (Nat.two_pow_pos _)

/-- A draw of `b` bits lies below 2^b (R134). -/
theorem drawOf_lt {bits b : Nat} {o : Word} (h : o.toNat < 2 ^ bits) (hb : b ≤ bits) : (drawOf bits b o).toNat < 2 ^ b := by
  simp only [drawOf, BitVec.toNat_ushiftRight, Nat.shiftRight_eq_div_pow]
  rw [Nat.div_lt_iff_lt_mul (Nat.two_pow_pos _), ← pow_add]
  rwa [Nat.add_sub_cancel' hb]

end Sys2Proof.Machine
end

