-- ==== Sys2Proof/Laws/State.lean ====
section
/-! SUPPORT. What every field of the state is after every field update: one lemma per field per update, so that no proof
unfolds a record. -/

namespace Sys2Proof.Machine

variable (s : State)

/-! ### setS0 -/

@[simp] theorem State.setS0_config (x : Word) : (s.setS0 x).config = s.config := rfl
@[simp] theorem State.setS0_configured (x : Word) : (s.setS0 x).configured = s.configured := rfl
@[simp] theorem State.setS0_ver (x : Word) : (s.setS0 x).ver = s.ver := rfl
@[simp] theorem State.setS0_s0 (x : Word) : (s.setS0 x).s0 = x := rfl
@[simp] theorem State.setS0_s1 (x : Word) : (s.setS0 x).s1 = s.s1 := rfl
@[simp] theorem State.setS0_s2 (x : Word) : (s.setS0 x).s2 = s.s2 := rfl
@[simp] theorem State.setS0_s3 (x : Word) : (s.setS0 x).s3 = s.s3 := rfl
@[simp] theorem State.setS0_tab (x : Word) : (s.setS0 x).tab = s.tab := rfl
@[simp] theorem State.setS0_cur (x : Word) : (s.setS0 x).cur = s.cur := rfl
@[simp] theorem State.setS0_n (x : Word) : (s.setS0 x).n = s.n := rfl
@[simp] theorem State.setS0_j (x : Word) : (s.setS0 x).j = s.j := rfl
@[simp] theorem State.setS0_b (x : Word) : (s.setS0 x).b = s.b := rfl
@[simp] theorem State.setS0_hi (x : Word) : (s.setS0 x).hi = s.hi := rfl
@[simp] theorem State.setS0_r (x : Word) : (s.setS0 x).r = s.r := rfl
@[simp] theorem State.setS0_t0 (x : Word) : (s.setS0 x).t0 = s.t0 := rfl
@[simp] theorem State.setS0_t1 (x : Word) : (s.setS0 x).t1 = s.t1 := rfl
@[simp] theorem State.setS0_busy (x : Word) : (s.setS0 x).busy = s.busy := rfl
@[simp] theorem State.setS0_phase (x : Word) : (s.setS0 x).phase = s.phase := rfl
@[simp] theorem State.setS0_seq (x : Word) : (s.setS0 x).seq = s.seq := rfl
@[simp] theorem State.setS0_host (x : Word) : (s.setS0 x).host = s.host := rfl
@[simp] theorem State.setS0_responses (x : Word) : (s.setS0 x).responses = s.responses := rfl

/-! ### setWords -/

@[simp] theorem State.setWords_config (a b c d : Word) : (s.setWords a b c d).config = s.config := rfl
@[simp] theorem State.setWords_configured (a b c d : Word) : (s.setWords a b c d).configured = s.configured := rfl
@[simp] theorem State.setWords_ver (a b c d : Word) : (s.setWords a b c d).ver = s.ver := rfl
@[simp] theorem State.setWords_s0 (a b c d : Word) : (s.setWords a b c d).s0 = a := rfl
@[simp] theorem State.setWords_s1 (a b c d : Word) : (s.setWords a b c d).s1 = b := rfl
@[simp] theorem State.setWords_s2 (a b c d : Word) : (s.setWords a b c d).s2 = c := rfl
@[simp] theorem State.setWords_s3 (a b c d : Word) : (s.setWords a b c d).s3 = d := rfl
@[simp] theorem State.setWords_tab (a b c d : Word) : (s.setWords a b c d).tab = s.tab := rfl
@[simp] theorem State.setWords_cur (a b c d : Word) : (s.setWords a b c d).cur = s.cur := rfl
@[simp] theorem State.setWords_n (a b c d : Word) : (s.setWords a b c d).n = s.n := rfl
@[simp] theorem State.setWords_j (a b c d : Word) : (s.setWords a b c d).j = s.j := rfl
@[simp] theorem State.setWords_b (a b c d : Word) : (s.setWords a b c d).b = s.b := rfl
@[simp] theorem State.setWords_hi (a b c d : Word) : (s.setWords a b c d).hi = s.hi := rfl
@[simp] theorem State.setWords_r (a b c d : Word) : (s.setWords a b c d).r = s.r := rfl
@[simp] theorem State.setWords_t0 (a b c d : Word) : (s.setWords a b c d).t0 = s.t0 := rfl
@[simp] theorem State.setWords_t1 (a b c d : Word) : (s.setWords a b c d).t1 = s.t1 := rfl
@[simp] theorem State.setWords_busy (a b c d : Word) : (s.setWords a b c d).busy = s.busy := rfl
@[simp] theorem State.setWords_phase (a b c d : Word) : (s.setWords a b c d).phase = s.phase := rfl
@[simp] theorem State.setWords_seq (a b c d : Word) : (s.setWords a b c d).seq = s.seq := rfl
@[simp] theorem State.setWords_host (a b c d : Word) : (s.setWords a b c d).host = s.host := rfl
@[simp] theorem State.setWords_responses (a b c d : Word) : (s.setWords a b c d).responses = s.responses := rfl

/-! ### setTab -/

@[simp] theorem State.setTab_config (x : List Word) : (s.setTab x).config = s.config := rfl
@[simp] theorem State.setTab_configured (x : List Word) : (s.setTab x).configured = s.configured := rfl
@[simp] theorem State.setTab_ver (x : List Word) : (s.setTab x).ver = s.ver := rfl
@[simp] theorem State.setTab_s0 (x : List Word) : (s.setTab x).s0 = s.s0 := rfl
@[simp] theorem State.setTab_s1 (x : List Word) : (s.setTab x).s1 = s.s1 := rfl
@[simp] theorem State.setTab_s2 (x : List Word) : (s.setTab x).s2 = s.s2 := rfl
@[simp] theorem State.setTab_s3 (x : List Word) : (s.setTab x).s3 = s.s3 := rfl
@[simp] theorem State.setTab_tab (x : List Word) : (s.setTab x).tab = x := rfl
@[simp] theorem State.setTab_cur (x : List Word) : (s.setTab x).cur = s.cur := rfl
@[simp] theorem State.setTab_n (x : List Word) : (s.setTab x).n = s.n := rfl
@[simp] theorem State.setTab_j (x : List Word) : (s.setTab x).j = s.j := rfl
@[simp] theorem State.setTab_b (x : List Word) : (s.setTab x).b = s.b := rfl
@[simp] theorem State.setTab_hi (x : List Word) : (s.setTab x).hi = s.hi := rfl
@[simp] theorem State.setTab_r (x : List Word) : (s.setTab x).r = s.r := rfl
@[simp] theorem State.setTab_t0 (x : List Word) : (s.setTab x).t0 = s.t0 := rfl
@[simp] theorem State.setTab_t1 (x : List Word) : (s.setTab x).t1 = s.t1 := rfl
@[simp] theorem State.setTab_busy (x : List Word) : (s.setTab x).busy = s.busy := rfl
@[simp] theorem State.setTab_phase (x : List Word) : (s.setTab x).phase = s.phase := rfl
@[simp] theorem State.setTab_seq (x : List Word) : (s.setTab x).seq = s.seq := rfl
@[simp] theorem State.setTab_host (x : List Word) : (s.setTab x).host = s.host := rfl
@[simp] theorem State.setTab_responses (x : List Word) : (s.setTab x).responses = s.responses := rfl

/-! ### setCur -/

@[simp] theorem State.setCur_config (x : Word) : (s.setCur x).config = s.config := rfl
@[simp] theorem State.setCur_configured (x : Word) : (s.setCur x).configured = s.configured := rfl
@[simp] theorem State.setCur_ver (x : Word) : (s.setCur x).ver = s.ver := rfl
@[simp] theorem State.setCur_s0 (x : Word) : (s.setCur x).s0 = s.s0 := rfl
@[simp] theorem State.setCur_s1 (x : Word) : (s.setCur x).s1 = s.s1 := rfl
@[simp] theorem State.setCur_s2 (x : Word) : (s.setCur x).s2 = s.s2 := rfl
@[simp] theorem State.setCur_s3 (x : Word) : (s.setCur x).s3 = s.s3 := rfl
@[simp] theorem State.setCur_tab (x : Word) : (s.setCur x).tab = s.tab := rfl
@[simp] theorem State.setCur_cur (x : Word) : (s.setCur x).cur = x := rfl
@[simp] theorem State.setCur_n (x : Word) : (s.setCur x).n = s.n := rfl
@[simp] theorem State.setCur_j (x : Word) : (s.setCur x).j = s.j := rfl
@[simp] theorem State.setCur_b (x : Word) : (s.setCur x).b = s.b := rfl
@[simp] theorem State.setCur_hi (x : Word) : (s.setCur x).hi = s.hi := rfl
@[simp] theorem State.setCur_r (x : Word) : (s.setCur x).r = s.r := rfl
@[simp] theorem State.setCur_t0 (x : Word) : (s.setCur x).t0 = s.t0 := rfl
@[simp] theorem State.setCur_t1 (x : Word) : (s.setCur x).t1 = s.t1 := rfl
@[simp] theorem State.setCur_busy (x : Word) : (s.setCur x).busy = s.busy := rfl
@[simp] theorem State.setCur_phase (x : Word) : (s.setCur x).phase = s.phase := rfl
@[simp] theorem State.setCur_seq (x : Word) : (s.setCur x).seq = s.seq := rfl
@[simp] theorem State.setCur_host (x : Word) : (s.setCur x).host = s.host := rfl
@[simp] theorem State.setCur_responses (x : Word) : (s.setCur x).responses = s.responses := rfl

/-! ### setInstance -/

@[simp] theorem State.setInstance_config (x : BitVec 8) : (s.setInstance x).config = s.config := rfl
@[simp] theorem State.setInstance_configured (x : BitVec 8) : (s.setInstance x).configured = true := rfl
@[simp] theorem State.setInstance_ver (x : BitVec 8) : (s.setInstance x).ver = x := rfl
@[simp] theorem State.setInstance_s0 (x : BitVec 8) : (s.setInstance x).s0 = s.s0 := rfl
@[simp] theorem State.setInstance_s1 (x : BitVec 8) : (s.setInstance x).s1 = s.s1 := rfl
@[simp] theorem State.setInstance_s2 (x : BitVec 8) : (s.setInstance x).s2 = s.s2 := rfl
@[simp] theorem State.setInstance_s3 (x : BitVec 8) : (s.setInstance x).s3 = s.s3 := rfl
@[simp] theorem State.setInstance_tab (x : BitVec 8) : (s.setInstance x).tab = s.tab := rfl
@[simp] theorem State.setInstance_cur (x : BitVec 8) : (s.setInstance x).cur = s.cur := rfl
@[simp] theorem State.setInstance_n (x : BitVec 8) : (s.setInstance x).n = s.n := rfl
@[simp] theorem State.setInstance_j (x : BitVec 8) : (s.setInstance x).j = s.j := rfl
@[simp] theorem State.setInstance_b (x : BitVec 8) : (s.setInstance x).b = s.b := rfl
@[simp] theorem State.setInstance_hi (x : BitVec 8) : (s.setInstance x).hi = s.hi := rfl
@[simp] theorem State.setInstance_r (x : BitVec 8) : (s.setInstance x).r = s.r := rfl
@[simp] theorem State.setInstance_t0 (x : BitVec 8) : (s.setInstance x).t0 = s.t0 := rfl
@[simp] theorem State.setInstance_t1 (x : BitVec 8) : (s.setInstance x).t1 = s.t1 := rfl
@[simp] theorem State.setInstance_busy (x : BitVec 8) : (s.setInstance x).busy = s.busy := rfl
@[simp] theorem State.setInstance_phase (x : BitVec 8) : (s.setInstance x).phase = s.phase := rfl
@[simp] theorem State.setInstance_seq (x : BitVec 8) : (s.setInstance x).seq = s.seq := rfl
@[simp] theorem State.setInstance_host (x : BitVec 8) : (s.setInstance x).host = s.host := rfl
@[simp] theorem State.setInstance_responses (x : BitVec 8) : (s.setInstance x).responses = s.responses := rfl

/-! ### issue -/

@[simp] theorem State.issue_config (x : Response) : (s.issue x).config = s.config := rfl
@[simp] theorem State.issue_configured (x : Response) : (s.issue x).configured = s.configured := rfl
@[simp] theorem State.issue_ver (x : Response) : (s.issue x).ver = s.ver := rfl
@[simp] theorem State.issue_s0 (x : Response) : (s.issue x).s0 = s.s0 := rfl
@[simp] theorem State.issue_s1 (x : Response) : (s.issue x).s1 = s.s1 := rfl
@[simp] theorem State.issue_s2 (x : Response) : (s.issue x).s2 = s.s2 := rfl
@[simp] theorem State.issue_s3 (x : Response) : (s.issue x).s3 = s.s3 := rfl
@[simp] theorem State.issue_tab (x : Response) : (s.issue x).tab = s.tab := rfl
@[simp] theorem State.issue_cur (x : Response) : (s.issue x).cur = s.cur := rfl
@[simp] theorem State.issue_n (x : Response) : (s.issue x).n = s.n := rfl
@[simp] theorem State.issue_j (x : Response) : (s.issue x).j = s.j := rfl
@[simp] theorem State.issue_b (x : Response) : (s.issue x).b = s.b := rfl
@[simp] theorem State.issue_hi (x : Response) : (s.issue x).hi = s.hi := rfl
@[simp] theorem State.issue_r (x : Response) : (s.issue x).r = s.r := rfl
@[simp] theorem State.issue_t0 (x : Response) : (s.issue x).t0 = s.t0 := rfl
@[simp] theorem State.issue_t1 (x : Response) : (s.issue x).t1 = s.t1 := rfl
@[simp] theorem State.issue_busy (x : Response) : (s.issue x).busy = false := rfl
@[simp] theorem State.issue_phase (x : Response) : (s.issue x).phase = s.phase := rfl
@[simp] theorem State.issue_seq (x : Response) : (s.issue x).seq = s.seq := rfl
@[simp] theorem State.issue_host (x : Response) : (s.issue x).host = s.host := rfl
@[simp] theorem State.issue_responses (x : Response) : (s.issue x).responses = x :: s.responses := rfl

/-! ### setHost -/

@[simp] theorem State.setHost_config (x : List HostMove) : (s.setHost x).config = s.config := rfl
@[simp] theorem State.setHost_configured (x : List HostMove) : (s.setHost x).configured = s.configured := rfl
@[simp] theorem State.setHost_ver (x : List HostMove) : (s.setHost x).ver = s.ver := rfl
@[simp] theorem State.setHost_s0 (x : List HostMove) : (s.setHost x).s0 = s.s0 := rfl
@[simp] theorem State.setHost_s1 (x : List HostMove) : (s.setHost x).s1 = s.s1 := rfl
@[simp] theorem State.setHost_s2 (x : List HostMove) : (s.setHost x).s2 = s.s2 := rfl
@[simp] theorem State.setHost_s3 (x : List HostMove) : (s.setHost x).s3 = s.s3 := rfl
@[simp] theorem State.setHost_tab (x : List HostMove) : (s.setHost x).tab = s.tab := rfl
@[simp] theorem State.setHost_cur (x : List HostMove) : (s.setHost x).cur = s.cur := rfl
@[simp] theorem State.setHost_n (x : List HostMove) : (s.setHost x).n = s.n := rfl
@[simp] theorem State.setHost_j (x : List HostMove) : (s.setHost x).j = s.j := rfl
@[simp] theorem State.setHost_b (x : List HostMove) : (s.setHost x).b = s.b := rfl
@[simp] theorem State.setHost_hi (x : List HostMove) : (s.setHost x).hi = s.hi := rfl
@[simp] theorem State.setHost_r (x : List HostMove) : (s.setHost x).r = s.r := rfl
@[simp] theorem State.setHost_t0 (x : List HostMove) : (s.setHost x).t0 = s.t0 := rfl
@[simp] theorem State.setHost_t1 (x : List HostMove) : (s.setHost x).t1 = s.t1 := rfl
@[simp] theorem State.setHost_busy (x : List HostMove) : (s.setHost x).busy = s.busy := rfl
@[simp] theorem State.setHost_phase (x : List HostMove) : (s.setHost x).phase = s.phase := rfl
@[simp] theorem State.setHost_seq (x : List HostMove) : (s.setHost x).seq = s.seq := rfl
@[simp] theorem State.setHost_host (x : List HostMove) : (s.setHost x).host = x := rfl
@[simp] theorem State.setHost_responses (x : List HostMove) : (s.setHost x).responses = s.responses := rfl

/-! ### setSeq -/

@[simp] theorem State.setSeq_config (x : Memory) : (s.setSeq x).config = s.config := rfl
@[simp] theorem State.setSeq_configured (x : Memory) : (s.setSeq x).configured = s.configured := rfl
@[simp] theorem State.setSeq_ver (x : Memory) : (s.setSeq x).ver = s.ver := rfl
@[simp] theorem State.setSeq_s0 (x : Memory) : (s.setSeq x).s0 = s.s0 := rfl
@[simp] theorem State.setSeq_s1 (x : Memory) : (s.setSeq x).s1 = s.s1 := rfl
@[simp] theorem State.setSeq_s2 (x : Memory) : (s.setSeq x).s2 = s.s2 := rfl
@[simp] theorem State.setSeq_s3 (x : Memory) : (s.setSeq x).s3 = s.s3 := rfl
@[simp] theorem State.setSeq_tab (x : Memory) : (s.setSeq x).tab = s.tab := rfl
@[simp] theorem State.setSeq_cur (x : Memory) : (s.setSeq x).cur = s.cur := rfl
@[simp] theorem State.setSeq_n (x : Memory) : (s.setSeq x).n = s.n := rfl
@[simp] theorem State.setSeq_j (x : Memory) : (s.setSeq x).j = s.j := rfl
@[simp] theorem State.setSeq_b (x : Memory) : (s.setSeq x).b = s.b := rfl
@[simp] theorem State.setSeq_hi (x : Memory) : (s.setSeq x).hi = s.hi := rfl
@[simp] theorem State.setSeq_r (x : Memory) : (s.setSeq x).r = s.r := rfl
@[simp] theorem State.setSeq_t0 (x : Memory) : (s.setSeq x).t0 = s.t0 := rfl
@[simp] theorem State.setSeq_t1 (x : Memory) : (s.setSeq x).t1 = s.t1 := rfl
@[simp] theorem State.setSeq_busy (x : Memory) : (s.setSeq x).busy = s.busy := rfl
@[simp] theorem State.setSeq_phase (x : Memory) : (s.setSeq x).phase = s.phase := rfl
@[simp] theorem State.setSeq_seq (x : Memory) : (s.setSeq x).seq = x := rfl
@[simp] theorem State.setSeq_host (x : Memory) : (s.setSeq x).host = s.host := rfl
@[simp] theorem State.setSeq_responses (x : Memory) : (s.setSeq x).responses = s.responses := rfl

/-! ### setPhase -/

@[simp] theorem State.setPhase_config (x : Phase) : (s.setPhase x).config = s.config := rfl
@[simp] theorem State.setPhase_configured (x : Phase) : (s.setPhase x).configured = s.configured := rfl
@[simp] theorem State.setPhase_ver (x : Phase) : (s.setPhase x).ver = s.ver := rfl
@[simp] theorem State.setPhase_s0 (x : Phase) : (s.setPhase x).s0 = s.s0 := rfl
@[simp] theorem State.setPhase_s1 (x : Phase) : (s.setPhase x).s1 = s.s1 := rfl
@[simp] theorem State.setPhase_s2 (x : Phase) : (s.setPhase x).s2 = s.s2 := rfl
@[simp] theorem State.setPhase_s3 (x : Phase) : (s.setPhase x).s3 = s.s3 := rfl
@[simp] theorem State.setPhase_tab (x : Phase) : (s.setPhase x).tab = s.tab := rfl
@[simp] theorem State.setPhase_cur (x : Phase) : (s.setPhase x).cur = s.cur := rfl
@[simp] theorem State.setPhase_n (x : Phase) : (s.setPhase x).n = s.n := rfl
@[simp] theorem State.setPhase_j (x : Phase) : (s.setPhase x).j = s.j := rfl
@[simp] theorem State.setPhase_b (x : Phase) : (s.setPhase x).b = s.b := rfl
@[simp] theorem State.setPhase_hi (x : Phase) : (s.setPhase x).hi = s.hi := rfl
@[simp] theorem State.setPhase_r (x : Phase) : (s.setPhase x).r = s.r := rfl
@[simp] theorem State.setPhase_t0 (x : Phase) : (s.setPhase x).t0 = s.t0 := rfl
@[simp] theorem State.setPhase_t1 (x : Phase) : (s.setPhase x).t1 = s.t1 := rfl
@[simp] theorem State.setPhase_busy (x : Phase) : (s.setPhase x).busy = s.busy := rfl
@[simp] theorem State.setPhase_phase (x : Phase) : (s.setPhase x).phase = x := rfl
@[simp] theorem State.setPhase_seq (x : Phase) : (s.setPhase x).seq = s.seq := rfl
@[simp] theorem State.setPhase_host (x : Phase) : (s.setPhase x).host = s.host := rfl
@[simp] theorem State.setPhase_responses (x : Phase) : (s.setPhase x).responses = s.responses := rfl

/-! ### setBHi -/

@[simp] theorem State.setBHi_config (x : BitVec 6) (y : BitVec 33) : (s.setBHi x y).config = s.config := rfl
@[simp] theorem State.setBHi_configured (x : BitVec 6) (y : BitVec 33) : (s.setBHi x y).configured = s.configured := rfl
@[simp] theorem State.setBHi_ver (x : BitVec 6) (y : BitVec 33) : (s.setBHi x y).ver = s.ver := rfl
@[simp] theorem State.setBHi_s0 (x : BitVec 6) (y : BitVec 33) : (s.setBHi x y).s0 = s.s0 := rfl
@[simp] theorem State.setBHi_s1 (x : BitVec 6) (y : BitVec 33) : (s.setBHi x y).s1 = s.s1 := rfl
@[simp] theorem State.setBHi_s2 (x : BitVec 6) (y : BitVec 33) : (s.setBHi x y).s2 = s.s2 := rfl
@[simp] theorem State.setBHi_s3 (x : BitVec 6) (y : BitVec 33) : (s.setBHi x y).s3 = s.s3 := rfl
@[simp] theorem State.setBHi_tab (x : BitVec 6) (y : BitVec 33) : (s.setBHi x y).tab = s.tab := rfl
@[simp] theorem State.setBHi_cur (x : BitVec 6) (y : BitVec 33) : (s.setBHi x y).cur = s.cur := rfl
@[simp] theorem State.setBHi_n (x : BitVec 6) (y : BitVec 33) : (s.setBHi x y).n = s.n := rfl
@[simp] theorem State.setBHi_j (x : BitVec 6) (y : BitVec 33) : (s.setBHi x y).j = s.j := rfl
@[simp] theorem State.setBHi_b (x : BitVec 6) (y : BitVec 33) : (s.setBHi x y).b = x := rfl
@[simp] theorem State.setBHi_hi (x : BitVec 6) (y : BitVec 33) : (s.setBHi x y).hi = y := rfl
@[simp] theorem State.setBHi_r (x : BitVec 6) (y : BitVec 33) : (s.setBHi x y).r = s.r := rfl
@[simp] theorem State.setBHi_t0 (x : BitVec 6) (y : BitVec 33) : (s.setBHi x y).t0 = s.t0 := rfl
@[simp] theorem State.setBHi_t1 (x : BitVec 6) (y : BitVec 33) : (s.setBHi x y).t1 = s.t1 := rfl
@[simp] theorem State.setBHi_busy (x : BitVec 6) (y : BitVec 33) : (s.setBHi x y).busy = s.busy := rfl
@[simp] theorem State.setBHi_phase (x : BitVec 6) (y : BitVec 33) : (s.setBHi x y).phase = s.phase := rfl
@[simp] theorem State.setBHi_seq (x : BitVec 6) (y : BitVec 33) : (s.setBHi x y).seq = s.seq := rfl
@[simp] theorem State.setBHi_host (x : BitVec 6) (y : BitVec 33) : (s.setBHi x y).host = s.host := rfl
@[simp] theorem State.setBHi_responses (x : BitVec 6) (y : BitVec 33) : (s.setBHi x y).responses = s.responses := rfl

/-! ### setR -/

@[simp] theorem State.setR_config (x : Word) : (s.setR x).config = s.config := rfl
@[simp] theorem State.setR_configured (x : Word) : (s.setR x).configured = s.configured := rfl
@[simp] theorem State.setR_ver (x : Word) : (s.setR x).ver = s.ver := rfl
@[simp] theorem State.setR_s0 (x : Word) : (s.setR x).s0 = s.s0 := rfl
@[simp] theorem State.setR_s1 (x : Word) : (s.setR x).s1 = s.s1 := rfl
@[simp] theorem State.setR_s2 (x : Word) : (s.setR x).s2 = s.s2 := rfl
@[simp] theorem State.setR_s3 (x : Word) : (s.setR x).s3 = s.s3 := rfl
@[simp] theorem State.setR_tab (x : Word) : (s.setR x).tab = s.tab := rfl
@[simp] theorem State.setR_cur (x : Word) : (s.setR x).cur = s.cur := rfl
@[simp] theorem State.setR_n (x : Word) : (s.setR x).n = s.n := rfl
@[simp] theorem State.setR_j (x : Word) : (s.setR x).j = s.j := rfl
@[simp] theorem State.setR_b (x : Word) : (s.setR x).b = s.b := rfl
@[simp] theorem State.setR_hi (x : Word) : (s.setR x).hi = s.hi := rfl
@[simp] theorem State.setR_r (x : Word) : (s.setR x).r = x := rfl
@[simp] theorem State.setR_t0 (x : Word) : (s.setR x).t0 = s.t0 := rfl
@[simp] theorem State.setR_t1 (x : Word) : (s.setR x).t1 = s.t1 := rfl
@[simp] theorem State.setR_busy (x : Word) : (s.setR x).busy = s.busy := rfl
@[simp] theorem State.setR_phase (x : Word) : (s.setR x).phase = s.phase := rfl
@[simp] theorem State.setR_seq (x : Word) : (s.setR x).seq = s.seq := rfl
@[simp] theorem State.setR_host (x : Word) : (s.setR x).host = s.host := rfl
@[simp] theorem State.setR_responses (x : Word) : (s.setR x).responses = s.responses := rfl

/-! ### setT0 -/

@[simp] theorem State.setT0_config (x : Elem) : (s.setT0 x).config = s.config := rfl
@[simp] theorem State.setT0_configured (x : Elem) : (s.setT0 x).configured = s.configured := rfl
@[simp] theorem State.setT0_ver (x : Elem) : (s.setT0 x).ver = s.ver := rfl
@[simp] theorem State.setT0_s0 (x : Elem) : (s.setT0 x).s0 = s.s0 := rfl
@[simp] theorem State.setT0_s1 (x : Elem) : (s.setT0 x).s1 = s.s1 := rfl
@[simp] theorem State.setT0_s2 (x : Elem) : (s.setT0 x).s2 = s.s2 := rfl
@[simp] theorem State.setT0_s3 (x : Elem) : (s.setT0 x).s3 = s.s3 := rfl
@[simp] theorem State.setT0_tab (x : Elem) : (s.setT0 x).tab = s.tab := rfl
@[simp] theorem State.setT0_cur (x : Elem) : (s.setT0 x).cur = s.cur := rfl
@[simp] theorem State.setT0_n (x : Elem) : (s.setT0 x).n = s.n := rfl
@[simp] theorem State.setT0_j (x : Elem) : (s.setT0 x).j = s.j := rfl
@[simp] theorem State.setT0_b (x : Elem) : (s.setT0 x).b = s.b := rfl
@[simp] theorem State.setT0_hi (x : Elem) : (s.setT0 x).hi = s.hi := rfl
@[simp] theorem State.setT0_r (x : Elem) : (s.setT0 x).r = s.r := rfl
@[simp] theorem State.setT0_t0 (x : Elem) : (s.setT0 x).t0 = x := rfl
@[simp] theorem State.setT0_t1 (x : Elem) : (s.setT0 x).t1 = s.t1 := rfl
@[simp] theorem State.setT0_busy (x : Elem) : (s.setT0 x).busy = s.busy := rfl
@[simp] theorem State.setT0_phase (x : Elem) : (s.setT0 x).phase = s.phase := rfl
@[simp] theorem State.setT0_seq (x : Elem) : (s.setT0 x).seq = s.seq := rfl
@[simp] theorem State.setT0_host (x : Elem) : (s.setT0 x).host = s.host := rfl
@[simp] theorem State.setT0_responses (x : Elem) : (s.setT0 x).responses = s.responses := rfl

/-! ### setT1 -/

@[simp] theorem State.setT1_config (x : Elem) : (s.setT1 x).config = s.config := rfl
@[simp] theorem State.setT1_configured (x : Elem) : (s.setT1 x).configured = s.configured := rfl
@[simp] theorem State.setT1_ver (x : Elem) : (s.setT1 x).ver = s.ver := rfl
@[simp] theorem State.setT1_s0 (x : Elem) : (s.setT1 x).s0 = s.s0 := rfl
@[simp] theorem State.setT1_s1 (x : Elem) : (s.setT1 x).s1 = s.s1 := rfl
@[simp] theorem State.setT1_s2 (x : Elem) : (s.setT1 x).s2 = s.s2 := rfl
@[simp] theorem State.setT1_s3 (x : Elem) : (s.setT1 x).s3 = s.s3 := rfl
@[simp] theorem State.setT1_tab (x : Elem) : (s.setT1 x).tab = s.tab := rfl
@[simp] theorem State.setT1_cur (x : Elem) : (s.setT1 x).cur = s.cur := rfl
@[simp] theorem State.setT1_n (x : Elem) : (s.setT1 x).n = s.n := rfl
@[simp] theorem State.setT1_j (x : Elem) : (s.setT1 x).j = s.j := rfl
@[simp] theorem State.setT1_b (x : Elem) : (s.setT1 x).b = s.b := rfl
@[simp] theorem State.setT1_hi (x : Elem) : (s.setT1 x).hi = s.hi := rfl
@[simp] theorem State.setT1_r (x : Elem) : (s.setT1 x).r = s.r := rfl
@[simp] theorem State.setT1_t0 (x : Elem) : (s.setT1 x).t0 = s.t0 := rfl
@[simp] theorem State.setT1_t1 (x : Elem) : (s.setT1 x).t1 = x := rfl
@[simp] theorem State.setT1_busy (x : Elem) : (s.setT1 x).busy = s.busy := rfl
@[simp] theorem State.setT1_phase (x : Elem) : (s.setT1 x).phase = s.phase := rfl
@[simp] theorem State.setT1_seq (x : Elem) : (s.setT1 x).seq = s.seq := rfl
@[simp] theorem State.setT1_host (x : Elem) : (s.setT1 x).host = s.host := rfl
@[simp] theorem State.setT1_responses (x : Elem) : (s.setT1 x).responses = s.responses := rfl

/-! ### setJ -/

@[simp] theorem State.setJ_config (x : BitVec 33) : (s.setJ x).config = s.config := rfl
@[simp] theorem State.setJ_configured (x : BitVec 33) : (s.setJ x).configured = s.configured := rfl
@[simp] theorem State.setJ_ver (x : BitVec 33) : (s.setJ x).ver = s.ver := rfl
@[simp] theorem State.setJ_s0 (x : BitVec 33) : (s.setJ x).s0 = s.s0 := rfl
@[simp] theorem State.setJ_s1 (x : BitVec 33) : (s.setJ x).s1 = s.s1 := rfl
@[simp] theorem State.setJ_s2 (x : BitVec 33) : (s.setJ x).s2 = s.s2 := rfl
@[simp] theorem State.setJ_s3 (x : BitVec 33) : (s.setJ x).s3 = s.s3 := rfl
@[simp] theorem State.setJ_tab (x : BitVec 33) : (s.setJ x).tab = s.tab := rfl
@[simp] theorem State.setJ_cur (x : BitVec 33) : (s.setJ x).cur = s.cur := rfl
@[simp] theorem State.setJ_n (x : BitVec 33) : (s.setJ x).n = s.n := rfl
@[simp] theorem State.setJ_j (x : BitVec 33) : (s.setJ x).j = x := rfl
@[simp] theorem State.setJ_b (x : BitVec 33) : (s.setJ x).b = s.b := rfl
@[simp] theorem State.setJ_hi (x : BitVec 33) : (s.setJ x).hi = s.hi := rfl
@[simp] theorem State.setJ_r (x : BitVec 33) : (s.setJ x).r = s.r := rfl
@[simp] theorem State.setJ_t0 (x : BitVec 33) : (s.setJ x).t0 = s.t0 := rfl
@[simp] theorem State.setJ_t1 (x : BitVec 33) : (s.setJ x).t1 = s.t1 := rfl
@[simp] theorem State.setJ_busy (x : BitVec 33) : (s.setJ x).busy = s.busy := rfl
@[simp] theorem State.setJ_phase (x : BitVec 33) : (s.setJ x).phase = s.phase := rfl
@[simp] theorem State.setJ_seq (x : BitVec 33) : (s.setJ x).seq = s.seq := rfl
@[simp] theorem State.setJ_host (x : BitVec 33) : (s.setJ x).host = s.host := rfl
@[simp] theorem State.setJ_responses (x : BitVec 33) : (s.setJ x).responses = s.responses := rfl

/-! ### startShuffle -/

@[simp] theorem State.startShuffle_config (x : BitVec 33) : (s.startShuffle x).config = s.config := rfl
@[simp] theorem State.startShuffle_configured (x : BitVec 33) : (s.startShuffle x).configured = s.configured := rfl
@[simp] theorem State.startShuffle_ver (x : BitVec 33) : (s.startShuffle x).ver = s.ver := rfl
@[simp] theorem State.startShuffle_s0 (x : BitVec 33) : (s.startShuffle x).s0 = s.s0 := rfl
@[simp] theorem State.startShuffle_s1 (x : BitVec 33) : (s.startShuffle x).s1 = s.s1 := rfl
@[simp] theorem State.startShuffle_s2 (x : BitVec 33) : (s.startShuffle x).s2 = s.s2 := rfl
@[simp] theorem State.startShuffle_s3 (x : BitVec 33) : (s.startShuffle x).s3 = s.s3 := rfl
@[simp] theorem State.startShuffle_tab (x : BitVec 33) : (s.startShuffle x).tab = s.tab := rfl
@[simp] theorem State.startShuffle_cur (x : BitVec 33) : (s.startShuffle x).cur = s.cur := rfl
@[simp] theorem State.startShuffle_n (x : BitVec 33) : (s.startShuffle x).n = x := rfl
@[simp] theorem State.startShuffle_j (x : BitVec 33) : (s.startShuffle x).j = 1 := rfl
@[simp] theorem State.startShuffle_b (x : BitVec 33) : (s.startShuffle x).b = 1 := rfl
@[simp] theorem State.startShuffle_hi (x : BitVec 33) : (s.startShuffle x).hi = 2 := rfl
@[simp] theorem State.startShuffle_r (x : BitVec 33) : (s.startShuffle x).r = s.r := rfl
@[simp] theorem State.startShuffle_t0 (x : BitVec 33) : (s.startShuffle x).t0 = s.t0 := rfl
@[simp] theorem State.startShuffle_t1 (x : BitVec 33) : (s.startShuffle x).t1 = s.t1 := rfl
@[simp] theorem State.startShuffle_busy (x : BitVec 33) : (s.startShuffle x).busy = true := rfl
@[simp] theorem State.startShuffle_phase (x : BitVec 33) : (s.startShuffle x).phase = .loop := rfl
@[simp] theorem State.startShuffle_seq (x : BitVec 33) : (s.startShuffle x).seq = s.seq := rfl
@[simp] theorem State.startShuffle_host (x : BitVec 33) : (s.startShuffle x).host = s.host := rfl
@[simp] theorem State.startShuffle_responses (x : BitVec 33) : (s.startShuffle x).responses = s.responses := rfl

/-! ### memWrite -/

@[simp] theorem State.memWrite_config (i : Nat) (x : Elem) : (s.memWrite i x).config = s.config := rfl
@[simp] theorem State.memWrite_configured (i : Nat) (x : Elem) : (s.memWrite i x).configured = s.configured := rfl
@[simp] theorem State.memWrite_ver (i : Nat) (x : Elem) : (s.memWrite i x).ver = s.ver := rfl
@[simp] theorem State.memWrite_s0 (i : Nat) (x : Elem) : (s.memWrite i x).s0 = s.s0 := rfl
@[simp] theorem State.memWrite_s1 (i : Nat) (x : Elem) : (s.memWrite i x).s1 = s.s1 := rfl
@[simp] theorem State.memWrite_s2 (i : Nat) (x : Elem) : (s.memWrite i x).s2 = s.s2 := rfl
@[simp] theorem State.memWrite_s3 (i : Nat) (x : Elem) : (s.memWrite i x).s3 = s.s3 := rfl
@[simp] theorem State.memWrite_tab (i : Nat) (x : Elem) : (s.memWrite i x).tab = s.tab := rfl
@[simp] theorem State.memWrite_cur (i : Nat) (x : Elem) : (s.memWrite i x).cur = s.cur := rfl
@[simp] theorem State.memWrite_n (i : Nat) (x : Elem) : (s.memWrite i x).n = s.n := rfl
@[simp] theorem State.memWrite_j (i : Nat) (x : Elem) : (s.memWrite i x).j = s.j := rfl
@[simp] theorem State.memWrite_b (i : Nat) (x : Elem) : (s.memWrite i x).b = s.b := rfl
@[simp] theorem State.memWrite_hi (i : Nat) (x : Elem) : (s.memWrite i x).hi = s.hi := rfl
@[simp] theorem State.memWrite_r (i : Nat) (x : Elem) : (s.memWrite i x).r = s.r := rfl
@[simp] theorem State.memWrite_t0 (i : Nat) (x : Elem) : (s.memWrite i x).t0 = s.t0 := rfl
@[simp] theorem State.memWrite_t1 (i : Nat) (x : Elem) : (s.memWrite i x).t1 = s.t1 := rfl
@[simp] theorem State.memWrite_busy (i : Nat) (x : Elem) : (s.memWrite i x).busy = s.busy := rfl
@[simp] theorem State.memWrite_phase (i : Nat) (x : Elem) : (s.memWrite i x).phase = s.phase := rfl
@[simp] theorem State.memWrite_seq (i : Nat) (x : Elem) : (s.memWrite i x).seq = s.seq.write i x := rfl
@[simp] theorem State.memWrite_host (i : Nat) (x : Elem) : (s.memWrite i x).host = s.host := rfl
@[simp] theorem State.memWrite_responses (i : Nat) (x : Elem) : (s.memWrite i x).responses = s.responses := rfl

end Sys2Proof.Machine
end

