-- ==== Sys2Proof/Laws/Ops.lean ====
section
/-! SUPPORT. What each shared operation changes and what it leaves alone: `next_raw` and what is made of it write the state
words only (R21), the decorrelation stage TAB and CUR as well (R26, R27), and nothing here touches CONFIGURED, VER, the
controller, SEQ or the ports. -/

namespace Sys2Proof.Machine

/-! ### next_raw writes the state words only (R21, R87) -/

@[simp] theorem nextRaw_config (a : RawAlg) (s : State) : (nextRaw a s).2.config = s.config := by cases a <;> rfl
@[simp] theorem nextRaw_configured (a : RawAlg) (s : State) : (nextRaw a s).2.configured = s.configured := by cases a <;> rfl
@[simp] theorem nextRaw_ver (a : RawAlg) (s : State) : (nextRaw a s).2.ver = s.ver := by cases a <;> rfl
@[simp] theorem nextRaw_tab (a : RawAlg) (s : State) : (nextRaw a s).2.tab = s.tab := by cases a <;> rfl
@[simp] theorem nextRaw_cur (a : RawAlg) (s : State) : (nextRaw a s).2.cur = s.cur := by cases a <;> rfl
@[simp] theorem nextRaw_n (a : RawAlg) (s : State) : (nextRaw a s).2.n = s.n := by cases a <;> rfl
@[simp] theorem nextRaw_j (a : RawAlg) (s : State) : (nextRaw a s).2.j = s.j := by cases a <;> rfl
@[simp] theorem nextRaw_b (a : RawAlg) (s : State) : (nextRaw a s).2.b = s.b := by cases a <;> rfl
@[simp] theorem nextRaw_hi (a : RawAlg) (s : State) : (nextRaw a s).2.hi = s.hi := by cases a <;> rfl
@[simp] theorem nextRaw_r (a : RawAlg) (s : State) : (nextRaw a s).2.r = s.r := by cases a <;> rfl
@[simp] theorem nextRaw_t0 (a : RawAlg) (s : State) : (nextRaw a s).2.t0 = s.t0 := by cases a <;> rfl
@[simp] theorem nextRaw_t1 (a : RawAlg) (s : State) : (nextRaw a s).2.t1 = s.t1 := by cases a <;> rfl
@[simp] theorem nextRaw_busy (a : RawAlg) (s : State) : (nextRaw a s).2.busy = s.busy := by cases a <;> rfl
@[simp] theorem nextRaw_phase (a : RawAlg) (s : State) : (nextRaw a s).2.phase = s.phase := by cases a <;> rfl
@[simp] theorem nextRaw_seq (a : RawAlg) (s : State) : (nextRaw a s).2.seq = s.seq := by cases a <;> rfl
@[simp] theorem nextRaw_host (a : RawAlg) (s : State) : (nextRaw a s).2.host = s.host := by cases a <;> rfl
@[simp] theorem nextRaw_responses (a : RawAlg) (s : State) : (nextRaw a s).2.responses = s.responses := by cases a <;> rfl

/-- The output of `next_raw` is the newest state word (R88, R91, R94). -/
theorem nextRaw_output (a : RawAlg) (s : State) :
    (nextRaw a s).1 = if a = .xs128 then (nextRaw a s).2.s3 else (nextRaw a s).2.s0 := by cases a <;> rfl

/-- `next_raw` as one write of the state words. -/
theorem nextRaw_eq_setWords (a : RawAlg) (s : State) :
    (nextRaw a s).2 =
      s.setWords (nextRaw a s).2.s0 (nextRaw a s).2.s1 (nextRaw a s).2.s2 (nextRaw a s).2.s3 := by cases a <;> rfl

/-! ### Several raw outputs -/

@[simp] theorem rawOutputs_length (a : RawAlg) (k : Nat) (s : State) : (rawOutputs a k s).1.length = k := by
  induction k generalizing s with
  | zero => rfl
  | succ k ih => simp [rawOutputs, ih]

@[simp] theorem rawOutputs_config (a : RawAlg) (k : Nat) (s : State) : (rawOutputs a k s).2.config = s.config := by
  induction k generalizing s with
  | zero => rfl
  | succ k ih => simp [rawOutputs, ih]
@[simp] theorem rawOutputs_configured (a : RawAlg) (k : Nat) (s : State) : (rawOutputs a k s).2.configured = s.configured := by
  induction k generalizing s with
  | zero => rfl
  | succ k ih => simp [rawOutputs, ih]
@[simp] theorem rawOutputs_ver (a : RawAlg) (k : Nat) (s : State) : (rawOutputs a k s).2.ver = s.ver := by
  induction k generalizing s with
  | zero => rfl
  | succ k ih => simp [rawOutputs, ih]
@[simp] theorem rawOutputs_tab (a : RawAlg) (k : Nat) (s : State) : (rawOutputs a k s).2.tab = s.tab := by
  induction k generalizing s with
  | zero => rfl
  | succ k ih => simp [rawOutputs, ih]
@[simp] theorem rawOutputs_cur (a : RawAlg) (k : Nat) (s : State) : (rawOutputs a k s).2.cur = s.cur := by
  induction k generalizing s with
  | zero => rfl
  | succ k ih => simp [rawOutputs, ih]
@[simp] theorem rawOutputs_n (a : RawAlg) (k : Nat) (s : State) : (rawOutputs a k s).2.n = s.n := by
  induction k generalizing s with
  | zero => rfl
  | succ k ih => simp [rawOutputs, ih]
@[simp] theorem rawOutputs_j (a : RawAlg) (k : Nat) (s : State) : (rawOutputs a k s).2.j = s.j := by
  induction k generalizing s with
  | zero => rfl
  | succ k ih => simp [rawOutputs, ih]
@[simp] theorem rawOutputs_b (a : RawAlg) (k : Nat) (s : State) : (rawOutputs a k s).2.b = s.b := by
  induction k generalizing s with
  | zero => rfl
  | succ k ih => simp [rawOutputs, ih]
@[simp] theorem rawOutputs_hi (a : RawAlg) (k : Nat) (s : State) : (rawOutputs a k s).2.hi = s.hi := by
  induction k generalizing s with
  | zero => rfl
  | succ k ih => simp [rawOutputs, ih]
@[simp] theorem rawOutputs_r (a : RawAlg) (k : Nat) (s : State) : (rawOutputs a k s).2.r = s.r := by
  induction k generalizing s with
  | zero => rfl
  | succ k ih => simp [rawOutputs, ih]
@[simp] theorem rawOutputs_t0 (a : RawAlg) (k : Nat) (s : State) : (rawOutputs a k s).2.t0 = s.t0 := by
  induction k generalizing s with
  | zero => rfl
  | succ k ih => simp [rawOutputs, ih]
@[simp] theorem rawOutputs_t1 (a : RawAlg) (k : Nat) (s : State) : (rawOutputs a k s).2.t1 = s.t1 := by
  induction k generalizing s with
  | zero => rfl
  | succ k ih => simp [rawOutputs, ih]
@[simp] theorem rawOutputs_busy (a : RawAlg) (k : Nat) (s : State) : (rawOutputs a k s).2.busy = s.busy := by
  induction k generalizing s with
  | zero => rfl
  | succ k ih => simp [rawOutputs, ih]
@[simp] theorem rawOutputs_phase (a : RawAlg) (k : Nat) (s : State) : (rawOutputs a k s).2.phase = s.phase := by
  induction k generalizing s with
  | zero => rfl
  | succ k ih => simp [rawOutputs, ih]
@[simp] theorem rawOutputs_seq (a : RawAlg) (k : Nat) (s : State) : (rawOutputs a k s).2.seq = s.seq := by
  induction k generalizing s with
  | zero => rfl
  | succ k ih => simp [rawOutputs, ih]
@[simp] theorem rawOutputs_host (a : RawAlg) (k : Nat) (s : State) : (rawOutputs a k s).2.host = s.host := by
  induction k generalizing s with
  | zero => rfl
  | succ k ih => simp [rawOutputs, ih]
@[simp] theorem rawOutputs_responses (a : RawAlg) (k : Nat) (s : State) : (rawOutputs a k s).2.responses = s.responses := by
  induction k generalizing s with
  | zero => rfl
  | succ k ih => simp [rawOutputs, ih]

/-- Raw outputs in two parts. -/
theorem rawOutputs_add (a : RawAlg) (k l : Nat) (s : State) :
    rawOutputs a (k + l) s =
      ((rawOutputs a k s).1 ++ (rawOutputs a l (rawOutputs a k s).2).1, (rawOutputs a l (rawOutputs a k s).2).2) := by
  induction k generalizing s with
  | zero => simp [rawOutputs]
  | succ k ih => rw [Nat.succ_add]; simp [rawOutputs, ih]

/-! ### Seeding the raw state (R83) -/

@[simp] theorem seedRaw_config (a : RawAlg) (x : Word) (s : State) : (seedRaw a x s).config = s.config := by
  cases a <;> simp [seedRaw, seedLcg, seedXs32, seedXs128]
@[simp] theorem seedRaw_configured (a : RawAlg) (x : Word) (s : State) : (seedRaw a x s).configured = s.configured := by
  cases a <;> simp [seedRaw, seedLcg, seedXs32, seedXs128]
@[simp] theorem seedRaw_ver (a : RawAlg) (x : Word) (s : State) : (seedRaw a x s).ver = s.ver := by
  cases a <;> simp [seedRaw, seedLcg, seedXs32, seedXs128]
@[simp] theorem seedRaw_tab (a : RawAlg) (x : Word) (s : State) : (seedRaw a x s).tab = s.tab := by
  cases a <;> simp [seedRaw, seedLcg, seedXs32, seedXs128]
@[simp] theorem seedRaw_cur (a : RawAlg) (x : Word) (s : State) : (seedRaw a x s).cur = s.cur := by
  cases a <;> simp [seedRaw, seedLcg, seedXs32, seedXs128]
@[simp] theorem seedRaw_n (a : RawAlg) (x : Word) (s : State) : (seedRaw a x s).n = s.n := by
  cases a <;> simp [seedRaw, seedLcg, seedXs32, seedXs128]
@[simp] theorem seedRaw_j (a : RawAlg) (x : Word) (s : State) : (seedRaw a x s).j = s.j := by
  cases a <;> simp [seedRaw, seedLcg, seedXs32, seedXs128]
@[simp] theorem seedRaw_b (a : RawAlg) (x : Word) (s : State) : (seedRaw a x s).b = s.b := by
  cases a <;> simp [seedRaw, seedLcg, seedXs32, seedXs128]
@[simp] theorem seedRaw_hi (a : RawAlg) (x : Word) (s : State) : (seedRaw a x s).hi = s.hi := by
  cases a <;> simp [seedRaw, seedLcg, seedXs32, seedXs128]
@[simp] theorem seedRaw_r (a : RawAlg) (x : Word) (s : State) : (seedRaw a x s).r = s.r := by
  cases a <;> simp [seedRaw, seedLcg, seedXs32, seedXs128]
@[simp] theorem seedRaw_t0 (a : RawAlg) (x : Word) (s : State) : (seedRaw a x s).t0 = s.t0 := by
  cases a <;> simp [seedRaw, seedLcg, seedXs32, seedXs128]
@[simp] theorem seedRaw_t1 (a : RawAlg) (x : Word) (s : State) : (seedRaw a x s).t1 = s.t1 := by
  cases a <;> simp [seedRaw, seedLcg, seedXs32, seedXs128]
@[simp] theorem seedRaw_busy (a : RawAlg) (x : Word) (s : State) : (seedRaw a x s).busy = s.busy := by
  cases a <;> simp [seedRaw, seedLcg, seedXs32, seedXs128]
@[simp] theorem seedRaw_phase (a : RawAlg) (x : Word) (s : State) : (seedRaw a x s).phase = s.phase := by
  cases a <;> simp [seedRaw, seedLcg, seedXs32, seedXs128]
@[simp] theorem seedRaw_seq (a : RawAlg) (x : Word) (s : State) : (seedRaw a x s).seq = s.seq := by
  cases a <;> simp [seedRaw, seedLcg, seedXs32, seedXs128]
@[simp] theorem seedRaw_host (a : RawAlg) (x : Word) (s : State) : (seedRaw a x s).host = s.host := by
  cases a <;> simp [seedRaw, seedLcg, seedXs32, seedXs128]
@[simp] theorem seedRaw_responses (a : RawAlg) (x : Word) (s : State) : (seedRaw a x s).responses = s.responses := by
  cases a <;> simp [seedRaw, seedLcg, seedXs32, seedXs128]

/-! ### The decorrelation stage (R112, R114) and seed_all (R83) -/

@[simp] theorem bdFill_config (a : RawAlg) (s : State) : (bdFill a s).config = s.config := by simp [bdFill]
@[simp] theorem bdFill_configured (a : RawAlg) (s : State) : (bdFill a s).configured = s.configured := by simp [bdFill]
@[simp] theorem bdFill_ver (a : RawAlg) (s : State) : (bdFill a s).ver = s.ver := by simp [bdFill]
@[simp] theorem bdFill_n (a : RawAlg) (s : State) : (bdFill a s).n = s.n := by simp [bdFill]
@[simp] theorem bdFill_j (a : RawAlg) (s : State) : (bdFill a s).j = s.j := by simp [bdFill]
@[simp] theorem bdFill_b (a : RawAlg) (s : State) : (bdFill a s).b = s.b := by simp [bdFill]
@[simp] theorem bdFill_hi (a : RawAlg) (s : State) : (bdFill a s).hi = s.hi := by simp [bdFill]
@[simp] theorem bdFill_r (a : RawAlg) (s : State) : (bdFill a s).r = s.r := by simp [bdFill]
@[simp] theorem bdFill_t0 (a : RawAlg) (s : State) : (bdFill a s).t0 = s.t0 := by simp [bdFill]
@[simp] theorem bdFill_t1 (a : RawAlg) (s : State) : (bdFill a s).t1 = s.t1 := by simp [bdFill]
@[simp] theorem bdFill_busy (a : RawAlg) (s : State) : (bdFill a s).busy = s.busy := by simp [bdFill]
@[simp] theorem bdFill_phase (a : RawAlg) (s : State) : (bdFill a s).phase = s.phase := by simp [bdFill]
@[simp] theorem bdFill_seq (a : RawAlg) (s : State) : (bdFill a s).seq = s.seq := by simp [bdFill]
@[simp] theorem bdFill_host (a : RawAlg) (s : State) : (bdFill a s).host = s.host := by simp [bdFill]
@[simp] theorem bdFill_responses (a : RawAlg) (s : State) : (bdFill a s).responses = s.responses := by simp [bdFill]
@[simp] theorem bdFill_tab (a : RawAlg) (s : State) : (bdFill a s).tab = (rawOutputs a (2 ^ s.config.bdBits) s).1 := by
  simp [bdFill]

@[simp] theorem seedAll_config (v : Version) (x : Word) (s : State) : (seedAll v x s).config = s.config := by
  unfold seedAll; split <;> simp
@[simp] theorem seedAll_configured (v : Version) (x : Word) (s : State) : (seedAll v x s).configured = s.configured := by
  unfold seedAll; split <;> simp
@[simp] theorem seedAll_ver (v : Version) (x : Word) (s : State) : (seedAll v x s).ver = s.ver := by
  unfold seedAll; split <;> simp
@[simp] theorem seedAll_n (v : Version) (x : Word) (s : State) : (seedAll v x s).n = s.n := by
  unfold seedAll; split <;> simp
@[simp] theorem seedAll_j (v : Version) (x : Word) (s : State) : (seedAll v x s).j = s.j := by
  unfold seedAll; split <;> simp
@[simp] theorem seedAll_b (v : Version) (x : Word) (s : State) : (seedAll v x s).b = s.b := by
  unfold seedAll; split <;> simp
@[simp] theorem seedAll_hi (v : Version) (x : Word) (s : State) : (seedAll v x s).hi = s.hi := by
  unfold seedAll; split <;> simp
@[simp] theorem seedAll_r (v : Version) (x : Word) (s : State) : (seedAll v x s).r = s.r := by
  unfold seedAll; split <;> simp
@[simp] theorem seedAll_t0 (v : Version) (x : Word) (s : State) : (seedAll v x s).t0 = s.t0 := by
  unfold seedAll; split <;> simp
@[simp] theorem seedAll_t1 (v : Version) (x : Word) (s : State) : (seedAll v x s).t1 = s.t1 := by
  unfold seedAll; split <;> simp
@[simp] theorem seedAll_busy (v : Version) (x : Word) (s : State) : (seedAll v x s).busy = s.busy := by
  unfold seedAll; split <;> simp
@[simp] theorem seedAll_phase (v : Version) (x : Word) (s : State) : (seedAll v x s).phase = s.phase := by
  unfold seedAll; split <;> simp
@[simp] theorem seedAll_seq (v : Version) (x : Word) (s : State) : (seedAll v x s).seq = s.seq := by
  unfold seedAll; split <;> simp
@[simp] theorem seedAll_host (v : Version) (x : Word) (s : State) : (seedAll v x s).host = s.host := by
  unfold seedAll; split <;> simp
@[simp] theorem seedAll_responses (v : Version) (x : Word) (s : State) : (seedAll v x s).responses = s.responses := by
  unfold seedAll; split <;> simp

/-- After `seed_all` of a wrapped version the table has `2^BD_BITS` entries (R112). -/
theorem seedAll_tab_length (v : Version) (x : Word) (s : State) (h : s.tab.length = 2 ^ s.config.bdBits) :
    (seedAll v x s).tab.length = 2 ^ s.config.bdBits := by
  unfold seedAll; split <;> simp [h]

/-! ### The public output (R114, R115) -/

@[simp] theorem getWrapped_config (a : RawAlg) (s : State) : (getWrapped a s).2.config = s.config := by simp [getWrapped]
@[simp] theorem getWrapped_configured (a : RawAlg) (s : State) : (getWrapped a s).2.configured = s.configured := by simp [getWrapped]
@[simp] theorem getWrapped_ver (a : RawAlg) (s : State) : (getWrapped a s).2.ver = s.ver := by simp [getWrapped]
@[simp] theorem getWrapped_n (a : RawAlg) (s : State) : (getWrapped a s).2.n = s.n := by simp [getWrapped]
@[simp] theorem getWrapped_j (a : RawAlg) (s : State) : (getWrapped a s).2.j = s.j := by simp [getWrapped]
@[simp] theorem getWrapped_b (a : RawAlg) (s : State) : (getWrapped a s).2.b = s.b := by simp [getWrapped]
@[simp] theorem getWrapped_hi (a : RawAlg) (s : State) : (getWrapped a s).2.hi = s.hi := by simp [getWrapped]
@[simp] theorem getWrapped_r (a : RawAlg) (s : State) : (getWrapped a s).2.r = s.r := by simp [getWrapped]
@[simp] theorem getWrapped_t0 (a : RawAlg) (s : State) : (getWrapped a s).2.t0 = s.t0 := by simp [getWrapped]
@[simp] theorem getWrapped_t1 (a : RawAlg) (s : State) : (getWrapped a s).2.t1 = s.t1 := by simp [getWrapped]
@[simp] theorem getWrapped_busy (a : RawAlg) (s : State) : (getWrapped a s).2.busy = s.busy := by simp [getWrapped]
@[simp] theorem getWrapped_phase (a : RawAlg) (s : State) : (getWrapped a s).2.phase = s.phase := by simp [getWrapped]
@[simp] theorem getWrapped_seq (a : RawAlg) (s : State) : (getWrapped a s).2.seq = s.seq := by simp [getWrapped]
@[simp] theorem getWrapped_host (a : RawAlg) (s : State) : (getWrapped a s).2.host = s.host := by simp [getWrapped]
@[simp] theorem getWrapped_responses (a : RawAlg) (s : State) : (getWrapped a s).2.responses = s.responses := by simp [getWrapped]

@[simp] theorem getOutput_config (v : Version) (s : State) : (getOutput v s).2.config = s.config := by
  unfold getOutput; split <;> simp
@[simp] theorem getOutput_configured (v : Version) (s : State) : (getOutput v s).2.configured = s.configured := by
  unfold getOutput; split <;> simp
@[simp] theorem getOutput_ver (v : Version) (s : State) : (getOutput v s).2.ver = s.ver := by
  unfold getOutput; split <;> simp
@[simp] theorem getOutput_n (v : Version) (s : State) : (getOutput v s).2.n = s.n := by
  unfold getOutput; split <;> simp
@[simp] theorem getOutput_j (v : Version) (s : State) : (getOutput v s).2.j = s.j := by
  unfold getOutput; split <;> simp
@[simp] theorem getOutput_b (v : Version) (s : State) : (getOutput v s).2.b = s.b := by
  unfold getOutput; split <;> simp
@[simp] theorem getOutput_hi (v : Version) (s : State) : (getOutput v s).2.hi = s.hi := by
  unfold getOutput; split <;> simp
@[simp] theorem getOutput_r (v : Version) (s : State) : (getOutput v s).2.r = s.r := by
  unfold getOutput; split <;> simp
@[simp] theorem getOutput_t0 (v : Version) (s : State) : (getOutput v s).2.t0 = s.t0 := by
  unfold getOutput; split <;> simp
@[simp] theorem getOutput_t1 (v : Version) (s : State) : (getOutput v s).2.t1 = s.t1 := by
  unfold getOutput; split <;> simp
@[simp] theorem getOutput_busy (v : Version) (s : State) : (getOutput v s).2.busy = s.busy := by
  unfold getOutput; split <;> simp
@[simp] theorem getOutput_phase (v : Version) (s : State) : (getOutput v s).2.phase = s.phase := by
  unfold getOutput; split <;> simp
@[simp] theorem getOutput_seq (v : Version) (s : State) : (getOutput v s).2.seq = s.seq := by
  unfold getOutput; split <;> simp
@[simp] theorem getOutput_host (v : Version) (s : State) : (getOutput v s).2.host = s.host := by
  unfold getOutput; split <;> simp
@[simp] theorem getOutput_responses (v : Version) (s : State) : (getOutput v s).2.responses = s.responses := by
  unfold getOutput; split <;> simp

/-- `get()` keeps the number of table entries (R114). -/
@[simp] theorem getOutput_tab_length (v : Version) (s : State) : (getOutput v s).2.tab.length = s.tab.length := by
  unfold getOutput; split <;> simp [getWrapped]

@[simp] theorem getOutputs_config (v : Version) (k : Nat) (s : State) : (getOutputs v k s).2.config = s.config := by
  induction k generalizing s with
  | zero => rfl
  | succ k ih => simp [getOutputs, ih]
@[simp] theorem getOutputs_configured (v : Version) (k : Nat) (s : State) : (getOutputs v k s).2.configured = s.configured := by
  induction k generalizing s with
  | zero => rfl
  | succ k ih => simp [getOutputs, ih]
@[simp] theorem getOutputs_ver (v : Version) (k : Nat) (s : State) : (getOutputs v k s).2.ver = s.ver := by
  induction k generalizing s with
  | zero => rfl
  | succ k ih => simp [getOutputs, ih]
@[simp] theorem getOutputs_n (v : Version) (k : Nat) (s : State) : (getOutputs v k s).2.n = s.n := by
  induction k generalizing s with
  | zero => rfl
  | succ k ih => simp [getOutputs, ih]
@[simp] theorem getOutputs_j (v : Version) (k : Nat) (s : State) : (getOutputs v k s).2.j = s.j := by
  induction k generalizing s with
  | zero => rfl
  | succ k ih => simp [getOutputs, ih]
@[simp] theorem getOutputs_b (v : Version) (k : Nat) (s : State) : (getOutputs v k s).2.b = s.b := by
  induction k generalizing s with
  | zero => rfl
  | succ k ih => simp [getOutputs, ih]
@[simp] theorem getOutputs_hi (v : Version) (k : Nat) (s : State) : (getOutputs v k s).2.hi = s.hi := by
  induction k generalizing s with
  | zero => rfl
  | succ k ih => simp [getOutputs, ih]
@[simp] theorem getOutputs_r (v : Version) (k : Nat) (s : State) : (getOutputs v k s).2.r = s.r := by
  induction k generalizing s with
  | zero => rfl
  | succ k ih => simp [getOutputs, ih]
@[simp] theorem getOutputs_t0 (v : Version) (k : Nat) (s : State) : (getOutputs v k s).2.t0 = s.t0 := by
  induction k generalizing s with
  | zero => rfl
  | succ k ih => simp [getOutputs, ih]
@[simp] theorem getOutputs_t1 (v : Version) (k : Nat) (s : State) : (getOutputs v k s).2.t1 = s.t1 := by
  induction k generalizing s with
  | zero => rfl
  | succ k ih => simp [getOutputs, ih]
@[simp] theorem getOutputs_busy (v : Version) (k : Nat) (s : State) : (getOutputs v k s).2.busy = s.busy := by
  induction k generalizing s with
  | zero => rfl
  | succ k ih => simp [getOutputs, ih]
@[simp] theorem getOutputs_phase (v : Version) (k : Nat) (s : State) : (getOutputs v k s).2.phase = s.phase := by
  induction k generalizing s with
  | zero => rfl
  | succ k ih => simp [getOutputs, ih]
@[simp] theorem getOutputs_seq (v : Version) (k : Nat) (s : State) : (getOutputs v k s).2.seq = s.seq := by
  induction k generalizing s with
  | zero => rfl
  | succ k ih => simp [getOutputs, ih]
@[simp] theorem getOutputs_host (v : Version) (k : Nat) (s : State) : (getOutputs v k s).2.host = s.host := by
  induction k generalizing s with
  | zero => rfl
  | succ k ih => simp [getOutputs, ih]
@[simp] theorem getOutputs_responses (v : Version) (k : Nat) (s : State) : (getOutputs v k s).2.responses = s.responses := by
  induction k generalizing s with
  | zero => rfl
  | succ k ih => simp [getOutputs, ih]

/-- An unwrapped `get()` leaves TAB and CUR alone (R115). -/
theorem getOutput_unwrapped {v : Version} (h : v.wrapped = false) (s : State) : getOutput v s = nextRaw v.raw s := by
  simp [getOutput, h]

/-- A wrapped `get()` is the table's (R114). -/
theorem getOutput_wrapped {v : Version} (h : v.wrapped = true) (s : State) : getOutput v s = getWrapped v.raw s := by
  simp [getOutput, h]

/-! ### Responses, errors and the guard (R63, R185, R187) -/

/-- A response is one next state: the response issued, nothing else. -/
@[simp] theorem respond_eq_next (st : Status) (d : BitVec 64) (s t : State) :
    respond st d s = .next t ↔ t = s.issue ⟨st, d⟩ := by
  unfold respond
  constructor
  · intro h; injection h with h; exact h.symm
  · intro h; rw [h]

/-- An error is one next state: its response issued with `RDATA = 0`, nothing else (R187). -/
@[simp] theorem raise_eq_next (e : Error) (s t : State) : raise e s = .next t ↔ t = s.issue ⟨e.status, 0⟩ :=
  respond_eq_next _ _ _ _

/-- No error has the code OK. -/
theorem Error.status_ne_ok (e : Error) : e.status ≠ .ok := by cases e <;> decide

/-- What a command that needs an instance can do before its own meaning (R185). -/
theorem withVersion_next {s t : State} {k : Version → Host.Outcome State Fault Refusal} (h : withVersion s k = .next t) :
    (s.configured = false ∧ t = s.issue ⟨.notConstructed, 0⟩) ∨
      (s.configured = true ∧ ∃ v, versionOf s.ver = some v ∧ k v = .next t) := by
  unfold withVersion at h
  split at h
  · split at h
    · exact .inr ⟨‹_›, _, ‹_›, h⟩
    · cases h
  · exact .inl ⟨by simpa using ‹¬s.configured = true›, (raise_eq_next _ _ _).mp h⟩

/-- With an instance the guard passes its version on. -/
theorem withVersion_some {s : State} {v : Version} (hc : s.configured = true) (hv : versionOf s.ver = some v)
    (k : Version → Host.Outcome State Fault Refusal) : withVersion s k = k v := by
  simp [withVersion, hc, hv]

/-- Without an instance the guard answers NotConstructed (R185). -/
theorem withVersion_unconfigured {s : State} (hc : s.configured = false)
    (k : Version → Host.Outcome State Fault Refusal) : withVersion s k = raise .notConstructed s := by
  simp [withVersion, hc]

end Sys2Proof.Machine
end

