-- ==== Sys2Proof/Laws/Exec.lean ====
section
/-! SUPPORT. Everything a meaning, a phase of the controller and a step can do when they answer a next state, said once: the
proofs about steps start from these and never unfold a meaning. -/

namespace Sys2Proof.Machine

/-- NOP (R168). -/
theorem execNop_next {s t : State} (h : execNop s = .next t) : t = s.issue ⟨.ok, 0⟩ :=
  (respond_eq_next _ _ _ _).mp h

/-- CONSTRUCT: the two errors in their order, or the new instance (R160). -/
theorem execConstruct_next {ver : BitVec 8} {arg : Arg} {s t : State} (h : execConstruct ver arg s = .next t) :
    (versionOf ver = none ∧ t = s.issue ⟨.unsupportedVersion, 0⟩) ∨
      ∃ v, versionOf ver = some v ∧
        ((seedNegative arg = true ∧ t = s.issue ⟨.invalidSeed, 0⟩) ∨
          (seedNegative arg = false ∧
            t = (seedAll v (seedLow v arg) (s.setInstance ver)).issue ⟨.ok, ver.setWidth 64⟩)) := by
  unfold execConstruct at h
  split at h
  · exact .inl ⟨‹_›, (raise_eq_next _ _ _).mp h⟩
  · refine .inr ⟨_, ‹_›, ?_⟩
    split at h
    · exact .inl ⟨‹_›, (raise_eq_next _ _ _).mp h⟩
    · exact .inr ⟨by simpa using ‹¬seedNegative arg = true›, (respond_eq_next _ _ _ _).mp h⟩

/-- SEED: the two errors in their order, or the instance re-seeded (R80). -/
theorem execSeed_next {arg : Arg} {s t : State} (h : execSeed arg s = .next t) :
    (s.configured = false ∧ t = s.issue ⟨.notConstructed, 0⟩) ∨
      (s.configured = true ∧ ∃ v, versionOf s.ver = some v ∧
        ((seedNegative arg = true ∧ t = s.issue ⟨.invalidSeed, 0⟩) ∨
          (seedNegative arg = false ∧ t = (seedAll v (seedLow v arg) s).issue ⟨.ok, 0⟩))) := by
  rcases withVersion_next h with h | ⟨hc, v, hv, h⟩
  · exact .inl h
  · refine .inr ⟨hc, v, hv, ?_⟩
    split at h
    · exact .inl ⟨‹_›, (raise_eq_next _ _ _).mp h⟩
    · exact .inr ⟨by simpa using ‹¬seedNegative arg = true›, (respond_eq_next _ _ _ _).mp h⟩

/-- NEXT_RAW (R86). -/
theorem execNextRaw_next {s t : State} (h : execNextRaw s = .next t) :
    (s.configured = false ∧ t = s.issue ⟨.notConstructed, 0⟩) ∨
      (s.configured = true ∧ ∃ v, versionOf s.ver = some v ∧
        t = (nextRaw v.raw s).2.issue ⟨.ok, (nextRaw v.raw s).1.setWidth 64⟩) := by
  rcases withVersion_next h with h | ⟨hc, v, hv, h⟩
  · exact .inl h
  · exact .inr ⟨hc, v, hv, (respond_eq_next _ _ _ _).mp h⟩

/-- GET (R113). -/
theorem execGet_next {s t : State} (h : execGet s = .next t) :
    (s.configured = false ∧ t = s.issue ⟨.notConstructed, 0⟩) ∨
      (s.configured = true ∧ ∃ v, versionOf s.ver = some v ∧
        t = (getOutput v s).2.issue ⟨.ok, (getOutput v s).1.setWidth 64⟩) := by
  rcases withVersion_next h with h | ⟨hc, v, hv, h⟩
  · exact .inl h
  · exact .inr ⟨hc, v, hv, (respond_eq_next _ _ _ _).mp h⟩

/-- SHUFFLE: the two errors in their order, or the controller started (R130, R131). -/
theorem execShuffle_next {arg : Arg} {s t : State} (h : execShuffle arg s = .next t) :
    (s.configured = false ∧ t = s.issue ⟨.notConstructed, 0⟩) ∨
      (s.configured = true ∧ ∃ v, versionOf s.ver = some v ∧
        ((v.nstates < lengthValue arg ∧ t = s.issue ⟨.sequenceTooLong, 0⟩) ∨
          (lengthValue arg ≤ v.nstates ∧ t = s.startShuffle (arg.setWidth 33)))) := by
  rcases withVersion_next h with h | ⟨hc, v, hv, h⟩
  · exact .inl h
  · refine .inr ⟨hc, v, hv, ?_⟩
    split at h
    · exact .inl ⟨‹_›, (raise_eq_next _ _ _).mp h⟩
    · injection h with h
      exact .inr ⟨by omega, h.symm⟩

/-- RDCFG: one response, nothing else (R167). -/
theorem execRdcfg_next {sel : BitVec 8} {s t : State} (h : execRdcfg sel s = .next t) :
    (sel.toNat = 5 ∧ t = s.issue ⟨.ok, statusWord s⟩) ∨
      (5 < sel.toNat ∧ t = s.issue ⟨.illegalCommand, 0⟩) ∨
      (sel.toNat < 5 ∧ s.configured = false ∧ t = s.issue ⟨.notConstructed, 0⟩) ∨
      (sel.toNat < 5 ∧ s.configured = true ∧ ∃ v, versionOf s.ver = some v ∧
        t = s.issue ⟨.ok, configValue sel v s⟩) := by
  unfold execRdcfg at h
  split at h
  · exact .inl ⟨‹_›, (respond_eq_next _ _ _ _).mp h⟩
  · split at h
    · exact .inr (.inl ⟨‹_›, (raise_eq_next _ _ _).mp h⟩)
    · have hlt : sel.toNat < 5 := by omega
      rcases withVersion_next h with ⟨hc, h⟩ | ⟨hc, v, hv, h⟩
      · exact .inr (.inr (.inl ⟨hlt, hc, h⟩))
      · exact .inr (.inr (.inr ⟨hlt, hc, v, hv, (respond_eq_next _ _ _ _).mp h⟩))

/-- CONSTRUCT of a supported version with a seed that is not negative (R160). -/
theorem execConstruct_ok {ver : BitVec 8} {arg : Arg} {v : Version} (hv : versionOf ver = some v)
    (h : arg.toNat < 2 ^ 63) (s : State) :
    execConstruct ver arg s = .next ((seedAll v (seedLow v arg) (s.setInstance ver)).issue ⟨.ok, ver.setWidth 64⟩) := by
  simp [execConstruct, hv, seedNegative_of_lt h, respond]

/-- SEED on a block with an instance, with a seed that is not negative (R80). -/
theorem execSeed_ok {arg : Arg} {s : State} {v : Version} (hc : s.configured = true) (hv : versionOf s.ver = some v)
    (h : arg.toNat < 2 ^ 63) : execSeed arg s = .next ((seedAll v (seedLow v arg) s).issue ⟨.ok, 0⟩) := by
  simp [execSeed, withVersion_some hc hv, seedNegative_of_lt h, respond]

/-- NEXT_RAW on a block with an instance (R86). -/
theorem execNextRaw_ok {s : State} {v : Version} (hc : s.configured = true) (hv : versionOf s.ver = some v) :
    execNextRaw s = .next ((nextRaw v.raw s).2.issue ⟨.ok, (nextRaw v.raw s).1.setWidth 64⟩) := by
  simp [execNextRaw, withVersion_some hc hv, respond]

/-- GET on a block with an instance (R113). -/
theorem execGet_ok {s : State} {v : Version} (hc : s.configured = true) (hv : versionOf s.ver = some v) :
    execGet s = .next ((getOutput v s).2.issue ⟨.ok, (getOutput v s).1.setWidth 64⟩) := by
  simp [execGet, withVersion_some hc hv, respond]

/-- SHUFFLE of an admissible length on a block with an instance (R130). -/
theorem execShuffle_ok {arg : Arg} {s : State} {v : Version} (hc : s.configured = true) (hv : versionOf s.ver = some v)
    (h : arg.toNat ≤ v.nstates) : execShuffle arg s = .next (s.startShuffle (arg.setWidth 33)) := by
  simp [execShuffle, withVersion_some hc hv, lengthValue, Nat.not_lt.mpr h]

/-- DRAW (R134). -/
theorem phaseDraw_next {s t : State} (h : phaseDraw s = .next t) :
    s.configured = true ∧ ∃ v, versionOf s.ver = some v ∧
      t = ((getOutput v s).2.setR (drawOf v.bits s.b.toNat (getOutput v s).1)).setPhase .test := by
  unfold phaseDraw at h
  split at h
  · split at h
    · injection h with h
      exact ⟨‹_›, _, ‹_›, h.symm⟩
    · cases h
  · cases h

/-- One phase of the controller, by phase (R142). -/
theorem controllerStep_next {s t : State} (h : controllerStep s = .next t) :
    (s.phase = .loop ∧ s.n.toNat ≤ s.j.toNat ∧ t = s.issue ⟨.ok, 0⟩) ∨
    (s.phase = .loop ∧ s.j.toNat < s.n.toNat ∧ t = s.setPhase .width) ∨
    (s.phase = .width ∧ s.j = s.hi ∧ t = (s.setBHi (s.b + 1) (s.hi <<< 1)).setPhase .draw) ∨
    (s.phase = .width ∧ s.j ≠ s.hi ∧ t = s.setPhase .draw) ∨
    (s.phase = .draw ∧ s.configured = true ∧ ∃ v, versionOf s.ver = some v ∧
      t = ((getOutput v s).2.setR (drawOf v.bits s.b.toNat (getOutput v s).1)).setPhase .test) ∨
    (s.phase = .test ∧ s.r.toNat ≤ s.j.toNat ∧ t = s.setPhase .rdR) ∨
    (s.phase = .test ∧ s.j.toNat < s.r.toNat ∧ t = s.setPhase .draw) ∨
    (s.phase = .rdR ∧ t = (s.setT0 (s.memRead s.r.toNat)).setPhase .rdJ) ∨
    (s.phase = .rdJ ∧ t = (s.setT1 (s.memRead s.j.toNat)).setPhase .wrJ) ∨
    (s.phase = .wrJ ∧ t = (s.memWrite s.j.toNat s.t0).setPhase .wrR) ∨
    (s.phase = .wrR ∧ t = ((s.memWrite s.r.toNat s.t1).setJ (s.j + 1)).setPhase .loop) := by
  unfold controllerStep at h
  split at h
  · unfold phaseLoop at h
    split at h
    · exact .inl ⟨‹_›, ‹_›, (respond_eq_next _ _ _ _).mp h⟩
    · injection h with h
      exact .inr (.inl ⟨‹_›, by omega, h.symm⟩)
  · injection h with h
    by_cases hj : s.j = s.hi
    · exact .inr (.inr (.inl ⟨‹_›, hj, by simpa [hj] using h.symm⟩))
    · exact .inr (.inr (.inr (.inl ⟨‹_›, hj, by simpa [hj] using h.symm⟩)))
  · exact .inr (.inr (.inr (.inr (.inl ⟨‹_›, phaseDraw_next h⟩))))
  · injection h with h
    by_cases hr : s.r.toNat ≤ s.j.toNat
    · exact .inr (.inr (.inr (.inr (.inr (.inl ⟨‹_›, hr, by simpa [hr] using h.symm⟩)))))
    · exact .inr (.inr (.inr (.inr (.inr (.inr (.inl ⟨‹_›, by omega, by simpa [hr] using h.symm⟩))))))
  · injection h with h
    exact .inr (.inr (.inr (.inr (.inr (.inr (.inr (.inl ⟨‹_›, h.symm⟩)))))))
  · injection h with h
    exact .inr (.inr (.inr (.inr (.inr (.inr (.inr (.inr (.inl ⟨‹_›, h.symm⟩))))))))
  · injection h with h
    exact .inr (.inr (.inr (.inr (.inr (.inr (.inr (.inr (.inr (.inl ⟨‹_›, h.symm⟩)))))))))
  · injection h with h
    exact .inr (.inr (.inr (.inr (.inr (.inr (.inr (.inr (.inr (.inr ⟨‹_›, h.symm⟩)))))))))

/-- A presented command is run, or answered as illegal (R69, R74). -/
theorem acceptCommand_next {c : Command} {s t : State} (h : acceptCommand c s = .next t) :
    (∃ i, decode c = .ok i ∧ exec i s = .next t) ∨
      (∃ e, decode c = .error e ∧ t = s.issue ⟨.illegalCommand, 0⟩) := by
  unfold acceptCommand at h
  split at h
  · exact .inl ⟨_, ‹_›, h⟩
  · exact .inr ⟨_, ‹_›, (raise_eq_next _ _ _).mp h⟩

/-- One step: nothing, a host move, a command accepted, or a phase of the controller (R13, R142). A phase runs on the state
itself, or on the state with a `wait` taken off the host's moves. -/
theorem step_next {s t : State} (h : step s = .next t) :
    (s.busy = false ∧ s.host = [] ∧ t = s) ∨
    (∃ rest, s.busy = false ∧ s.host = .wait :: rest ∧ t = s.setHost rest) ∨
    (∃ rest, s.host = .reset :: rest ∧ t = applyReset (s.setHost rest)) ∨
    (∃ i x rest, s.busy = false ∧ s.host = .store i x :: rest ∧ t = hostStore i x (s.setHost rest)) ∨
    (∃ c rest, s.busy = false ∧ s.host = .command c :: rest ∧ acceptCommand c (s.setHost rest) = .next t) ∨
    (∃ rest, s.busy = true ∧ s.host = .wait :: rest ∧ controllerStep (s.setHost rest) = .next t) ∨
    (s.busy = true ∧ HostHeldOff s.host ∧ controllerStep s = .next t) := by
  unfold step hostStep at h
  cases hb : s.busy <;> cases hh : s.host with
  | nil => simp_all [blockStep, HostHeldOff]
  | cons m rest => cases m <;> simp_all [blockStep, whenFree, HostHeldOff]

end Sys2Proof.Machine
end

