-- ==== Sys2Proof/Laws/FullPeriod.lean ====
section
/-! SUPPORT. The shift amounts (13, 17, 5) meet R100: the step of R91 runs through all words but 0 on one cycle.

The step is additive for xor, so a polynomial over GF(2), written as the number of its coefficients, acts on words with the
step in place of its indeterminate. Modulo one polynomial of degree 32 that acts as 0 the step is the indeterminate, and its
powers are computed on 32-bit numbers: the power 2^32 - 1 is 1, and for each prime p of 2^32 - 1 the power (2^32 - 1)/p less 1
has an inverse, so that it fixes no word but 0. -/

namespace Sys2Proof.Machine.Xs32

/-- The step with the amounts (13, 17, 5). -/
def f (x : Word) : Word := xs32Step ⟨13, 17, 5⟩ x

theorem f_zero : f 0 = 0 := by decide

theorem shl_xor (k : Nat) (x y : Word) : (x ^^^ y) ^^^ ((x ^^^ y) <<< k) = (x ^^^ (x <<< k)) ^^^ (y ^^^ (y <<< k)) := by
  rw [BitVec.shiftLeft_xor_distrib]
  ac_rfl

theorem shr_xor (k : Nat) (x y : Word) : (x ^^^ y) ^^^ ((x ^^^ y) >>> k) = (x ^^^ (x >>> k)) ^^^ (y ^^^ (y >>> k)) := by
  rw [BitVec.ushiftRight_xor_distrib]
  ac_rfl

/-- The step of R91 is additive for xor, whatever the amounts. -/
theorem xs32Step_xor (sh : Xs32Shift) (x y : Word) : xs32Step sh (x ^^^ y) = xs32Step sh x ^^^ xs32Step sh y := by
  simp only [xs32Step]
  rw [shl_xor sh.a, shr_xor sh.b, shl_xor sh.c]

theorem f_xor (x y : Word) : f (x ^^^ y) = f x ^^^ f y := xs32Step_xor _ x y

theorem iterate_zero (k : Nat) : f^[k] 0 = 0 := Function.iterate_fixed f_zero k

theorem iterate_xor (k : Nat) (x y : Word) : f^[k] (x ^^^ y) = f^[k] x ^^^ f^[k] y := by
  induction k generalizing x y with
  | zero => rfl
  | succ k ih => simp only [Function.iterate_succ_apply, f_xor, ih]

/-- The polynomial with the coefficients of the low `n` bits of `q`, acting on a word. -/
def act (q : Nat) : Nat → Word → Word
  | 0, _ => 0
  | n + 1, x => act q n x ^^^ (if q.testBit n then f^[n] x else 0)

theorem act_zero (q n : Nat) : act q n 0 = 0 := by
  induction n with
  | zero => rfl
  | succ n ih => rw [act, ih, iterate_zero, ite_self]; rfl

theorem act_xor (q n : Nat) (x y : Word) : act q n (x ^^^ y) = act q n x ^^^ act q n y := by
  induction n with
  | zero => simp [act]
  | succ n ih =>
    simp only [act, ih, iterate_xor]
    split
    · ac_rfl
    · simp

theorem act_xor_left (q r n : Nat) (x : Word) : act (q ^^^ r) n x = act q n x ^^^ act r n x := by
  induction n with
  | zero => simp [act]
  | succ n ih =>
    simp only [act, ih, Nat.testBit_xor]
    cases q.testBit n <;> cases r.testBit n <;> simp
    · ac_rfl
    · ac_rfl
    · rw [BitVec.xor_assoc, BitVec.xor_comm (act r n x), ← BitVec.xor_assoc (f^[n] x), BitVec.xor_self, BitVec.zero_xor]

theorem act_none (n : Nat) (x : Word) : act 0 n x = 0 := by
  induction n with
  | zero => rfl
  | succ n ih => simp [act, ih]

/-- The lowest coefficient apart. -/
theorem act_low (q n : Nat) (x : Word) :
    act q (n + 1) x = (if q.testBit 0 then x else 0) ^^^ act (q / 2) n (f x) := by
  induction n with
  | zero => simp [act]
  | succ n ih =>
    rw [act, ih, act, Nat.testBit_succ, Function.iterate_succ_apply, BitVec.xor_assoc]

theorem act_one (n : Nat) (x : Word) : act 1 (n + 1) x = x := by
  rw [act_low, show 1 / 2 = 0 from rfl, act_none]
  simp

/-- The polynomial of degree 32 that acts as 0, without its leading coefficient. -/
def low : Nat := 4112961

/-- A word function that respects xor and is 0 on the single bits is 0. -/
theorem eq_zero_of_bits {g : Word → Word} (hg : ∀ x y, g (x ^^^ y) = g x ^^^ g y)
    (hb : ∀ i : Fin 32, g (BitVec.twoPow 32 i) = 0) (x : Word) : g x = 0 := by
  have h0 : g 0 = 0 := by simpa using hg 0 0
  have key : ∀ n, n ≤ 32 → ∀ x : Word, (∀ i, n ≤ i → x.getLsbD i = false) → g x = 0 := by
    intro n
    induction n with
    | zero =>
      intro _ x hx
      rw [show x = 0 from BitVec.eq_of_getLsbD_eq fun i _ => by simpa using hx i (Nat.zero_le i)]
      exact h0
    | succ n ih =>
      intro hn x hx
      by_cases hbit : x.getLsbD n = true
      · have h : g (x ^^^ BitVec.twoPow 32 n) = 0 := by
          refine ih (by omega) _ fun i hi => ?_
          rw [BitVec.getLsbD_xor, BitVec.getLsbD_twoPow]
          by_cases hin : n = i
          · subst hin
            simp [hbit, show n < 32 by omega]
          · simp [hin, hx i (by omega)]
        rw [hg, hb ⟨n, by omega⟩] at h
        simpa using h
      · refine ih (by omega) x fun i hi => ?_
        by_cases hin : n = i
        · subst hin
          simpa using hbit
        · exact hx i (by omega)
  exact key 32 le_rfl x fun i hi => BitVec.getLsbD_of_ge x i hi

theorem iterate_32 (x : Word) : f^[32] x = act low 32 x := by
  have h := eq_zero_of_bits (g := fun x => f^[32] x ^^^ act low 32 x)
    (fun x y => by simp only [iterate_xor, act_xor]; ac_rfl) (by decide +kernel) x
  simpa using h

/-- Times the indeterminate. -/
def xtime (a : Nat) : Nat := (2 * a) % 2 ^ 32 ^^^ (if a.testBit 31 then low else 0)

theorem act_mod (a : Nat) (x : Word) : ∀ n, n ≤ 32 → act (a % 2 ^ 32) n x = act a n x := by
  intro n
  induction n with
  | zero => intro _; rfl
  | succ n ih =>
    intro hn
    rw [act, act, ih (by omega), Nat.testBit_mod_two_pow]
    simp [show n < 32 by omega]

theorem act_xtime (a : Nat) (x : Word) : act (xtime a) 32 x = act a 32 (f x) := by
  have h := act_low (2 * a) 32 x
  rw [act, iterate_32] at h
  rw [xtime, act_xor_left, act_mod _ _ 32 le_rfl]
  have h2 : (2 * a).testBit 32 = a.testBit 31 := by rw [Nat.testBit_succ]; simp
  have h3 : (2 * a).testBit 0 = false := by simp
  rw [h2, h3, Nat.mul_div_cancel_left a (by decide)] at h
  rw [← BitVec.zero_xor (x := act a 32 (f x))]
  refine Eq.trans ?_ (by simpa using h)
  split
  · simp
  · simp [act_none]

/-- The product of two polynomials, `n` coefficients of the second. -/
def mul : Nat → Nat → Nat → Nat
  | 0, _, _ => 0
  | n + 1, a, b => (if b.testBit 0 then a else 0) ^^^ mul n (xtime a) (b / 2)

theorem act_f (q n : Nat) (x : Word) : act q n (f x) = f (act q n x) := by
  induction n with
  | zero => exact f_zero.symm
  | succ n ih =>
    rw [act, act, ih, f_xor, ← Function.iterate_succ_apply, Function.iterate_succ_apply']
    split
    · rfl
    · rw [f_zero]

theorem act_mul (n a b : Nat) (x : Word) : act (mul n a b) 32 x = act b n (act a 32 x) := by
  induction n generalizing a b with
  | zero => rw [mul, act_none, act]
  | succ n ih =>
    rw [mul, act_xor_left, ih, act_xtime, act_f, act_low b]
    split
    · rfl
    · rw [act_none]

/-- The indeterminate to the power whose binary digits, the first the most significant, are listed. -/
def pow : List Bool → Nat
  | [] => 1
  | true :: bs => xtime (mul 32 (pow bs) (pow bs))
  | false :: bs => mul 32 (pow bs) (pow bs)

/-- The number with these binary digits, the least significant first. -/
def value : List Bool → Nat
  | [] => 0
  | true :: bs => 2 * value bs + 1
  | false :: bs => 2 * value bs

theorem act_pow (bs : List Bool) (x : Word) : act (pow bs) 32 x = f^[value bs] x := by
  induction bs generalizing x with
  | nil => exact act_one 31 x
  | cons b bs ih =>
    have h : ∀ y, act (mul 32 (pow bs) (pow bs)) 32 y = f^[2 * value bs] y := fun y => by
      rw [act_mul, ih, ih, Nat.two_mul, Function.iterate_add_apply]
    cases b
    · exact h x
    · rw [pow, act_xtime, h, value, Function.iterate_succ_apply]

/-- The binary digits of a number below `2 ^ n`. -/
def digits : Nat → Nat → List Bool
  | 0, _ => []
  | n + 1, k => k.testBit 0 :: digits n (k / 2)

theorem value_digits (n k : Nat) (h : k < 2 ^ n) : value (digits n k) = k := by
  induction n generalizing k with
  | zero =>
    rw [digits, value]
    omega
  | succ n ih =>
    have h2 := ih (k / 2) (by omega)
    rw [digits]
    by_cases hb : k % 2 = 1
    · rw [show k.testBit 0 = true by simp [hb], value, h2]
      omega
    · rw [show k.testBit 0 = false by simp; omega, value, h2]
      omega

/-- The power 2^32 - 1 of the step is the identity. -/
theorem iterate_all (x : Word) : f^[2 ^ 32 - 1] x = x := by
  have h := act_pow (digits 32 (2 ^ 32 - 1)) x
  rw [value_digits _ _ (by decide), show pow (digits 32 (2 ^ 32 - 1)) = 1 by decide +kernel] at h
  rw [← h]
  exact act_one 31 x

/-- A power of the step that, less the identity, has an inverse fixes no word but 0. -/
theorem iterate_ne {k r : Nat} (hk : k < 2 ^ 32) (h : mul 32 (pow (digits 32 k) ^^^ 1) r = 1) {x : Word} (hx : x ≠ 0) :
    f^[k] x ≠ x := by
  intro hf
  have h1 := act_mul 32 (pow (digits 32 k) ^^^ 1) r x
  rw [h, act_xor_left, act_pow, value_digits _ _ hk, hf, act_one 31 x, BitVec.xor_self] at h1
  exact hx (h1.trans (act_zero r 32))

theorem iterate_div_3 {x : Word} (hx : x ≠ 0) : f^[1431655765] x ≠ x :=
  iterate_ne (r := 2585467165) (by decide) (by decide +kernel) hx

theorem iterate_div_5 {x : Word} (hx : x ≠ 0) : f^[858993459] x ≠ x :=
  iterate_ne (r := 627944065) (by decide) (by decide +kernel) hx

theorem iterate_div_17 {x : Word} (hx : x ≠ 0) : f^[252645135] x ≠ x :=
  iterate_ne (r := 1428936566) (by decide) (by decide +kernel) hx

theorem iterate_div_257 {x : Word} (hx : x ≠ 0) : f^[16711935] x ≠ x :=
  iterate_ne (r := 2895861762) (by decide) (by decide +kernel) hx

theorem iterate_div_65537 {x : Word} (hx : x ≠ 0) : f^[65535] x ≠ x :=
  iterate_ne (r := 3511099410) (by decide) (by decide +kernel) hx

/-- The period of every word but 0 is 2^32 - 1. -/
theorem minimalPeriod_eq {x : Word} (hx : x ≠ 0) : Function.minimalPeriod f x = 4294967295 := by
  have hd : Function.minimalPeriod f x ∣ 4294967295 := Function.IsPeriodicPt.minimalPeriod_dvd (iterate_all x)
  obtain ⟨m, hm⟩ := hd
  by_contra hne
  have hm1 : m ≠ 1 := fun h => hne (by rw [hm, h, Nat.mul_one])
  obtain ⟨p, hp, q, rfl⟩ := Nat.exists_prime_and_dvd hm1
  have fixed : ∀ k, Function.minimalPeriod f x ∣ k → f^[k] x = x := fun k hk =>
    (Function.isPeriodicPt_minimalPeriod f x).trans_dvd hk
  have hpd : p ∣ 3 * (5 * (17 * (257 * 65537))) := ⟨Function.minimalPeriod f x * q, by
    rw [show 3 * (5 * (17 * (257 * 65537))) = 4294967295 by norm_num, hm]
    ring⟩
  have h3 : Nat.Prime 3 := by norm_num
  have h5 : Nat.Prime 5 := by norm_num
  have h17 : Nat.Prime 17 := by norm_num
  have h257 : Nat.Prime 257 := by norm_num
  have h65537 : Nat.Prime 65537 := by norm_num
  have pos : p = 3 ∨ p = 5 ∨ p = 17 ∨ p = 257 ∨ p = 65537 := by
    rcases hp.dvd_mul.mp hpd with h | h
    · exact .inl ((Nat.prime_dvd_prime_iff_eq hp h3).mp h)
    rcases hp.dvd_mul.mp h with h | h
    · exact .inr (.inl ((Nat.prime_dvd_prime_iff_eq hp h5).mp h))
    rcases hp.dvd_mul.mp h with h | h
    · exact .inr (.inr (.inl ((Nat.prime_dvd_prime_iff_eq hp h17).mp h)))
    rcases hp.dvd_mul.mp h with h | h
    · exact .inr (.inr (.inr (.inl ((Nat.prime_dvd_prime_iff_eq hp h257).mp h))))
    · exact .inr (.inr (.inr (.inr ((Nat.prime_dvd_prime_iff_eq hp h65537).mp h))))
  have dvd : ∀ k, p * k = 4294967295 → Function.minimalPeriod f x ∣ k := fun k hk =>
    ⟨q, Nat.eq_of_mul_eq_mul_left hp.pos (by rw [hk, hm]; ring)⟩
  rcases pos with rfl | rfl | rfl | rfl | rfl
  · exact iterate_div_3 hx (fixed _ (dvd 1431655765 (by norm_num)))
  · exact iterate_div_5 hx (fixed _ (dvd 858993459 (by norm_num)))
  · exact iterate_div_17 hx (fixed _ (dvd 252645135 (by norm_num)))
  · exact iterate_div_257 hx (fixed _ (dvd 16711935 (by norm_num)))
  · exact iterate_div_65537 hx (fixed _ (dvd 65535 (by norm_num)))

/-- A cycle as long as there are words but 0 meets them all. -/
theorem reaches {x y : Word} (hx : x ≠ 0) (hy : y ≠ 0) : ∃ k : Nat, f^[k] x = y := by
  have hne : ∀ k, f^[k] x ≠ 0 := fun k hk => by
    have h := (Function.isPeriodicPt_minimalPeriod f x).const_mul k
    rw [minimalPeriod_eq hx] at h
    have h' : f^[k * 4294967294 + k] x = x := by
      rw [show k * 4294967294 + k = k * 4294967295 by ring]
      exact h
    rw [Function.iterate_add_apply, hk, iterate_zero] at h'
    exact hx h'.symm
  let orbit := (Finset.range 4294967295).image fun k => (f^[k] x).toNat
  have hcard : orbit.card = 4294967295 := by
    rw [Finset.card_image_of_injOn, Finset.card_range]
    intro i hi k hk h
    have hi' : i < Function.minimalPeriod f x := by rw [minimalPeriod_eq hx]; exact Finset.mem_range.mp hi
    have hk' : k < Function.minimalPeriod f x := by rw [minimalPeriod_eq hx]; exact Finset.mem_range.mp hk
    exact Function.iterate_injOn_Iio_minimalPeriod hi' hk' (BitVec.eq_of_toNat_eq h)
  have hsub : orbit ⊆ Finset.Ico 1 4294967296 := by
    intro n hn
    obtain ⟨k, -, rfl⟩ := Finset.mem_image.mp hn
    have h0 : (f^[k] x).toNat ≠ 0 := fun h => hne k (BitVec.eq_of_toNat_eq h)
    exact Finset.mem_Ico.mpr ⟨by omega, (f^[k] x).isLt⟩
  have heq : orbit = Finset.Ico 1 4294967296 :=
    Finset.eq_of_subset_of_card_le hsub (by rw [hcard, Nat.card_Ico])
  have hy0 : y.toNat ≠ 0 := fun h => hy (BitVec.eq_of_toNat_eq h)
  have hmem : y.toNat ∈ orbit := by
    rw [heq]
    exact Finset.mem_Ico.mpr ⟨by omega, y.isLt⟩
  obtain ⟨k, -, hk⟩ := Finset.mem_image.mp hmem
  exact ⟨k, BitVec.eq_of_toNat_eq hk⟩

end Sys2Proof.Machine.Xs32

namespace Sys2Proof

/-- The default of XS32_SHIFT meets R100. -/
theorem xs32Default_oneCycle : Config.xs32Default.OneCycle :=
  ⟨Machine.Xs32.f_zero, fun _ _ hx hy => Machine.Xs32.reaches hx hy⟩

end Sys2Proof
end

