-- ==== Sys2Proof/Laws/Memory.lean ====
section
/-! SUPPORT. The laws of the sequence memory: a write keeps the canonical form and the bounds, a read after a write gives what
was written there and what was before elsewhere (R42, R46). -/

namespace Sys2Proof.Machine

/-- An index below every listed one reads as unlisted. -/
theorem Memory.read_of_lt {m : Memory} {i : Nat} (h : ∀ p ∈ m, i < p.1) : m.read i = Memory.unlisted := by
  induction m with
  | nil => rfl
  | cons p rest ih =>
    obtain ⟨k, x⟩ := p
    have hk : i < k := h (k, x) (by simp)
    rw [Memory.read, if_neg (by omega)]
    exact ih fun q hq => h q (by simp [hq])

/-- What a write lists was listed before, or is the element written. -/
theorem Memory.mem_write {m : Memory} {i : Nat} {v : Elem} {p : Nat × Elem} (h : p ∈ m.write i v) :
    p ∈ m ∨ (p = (i, v) ∧ v ≠ Memory.unlisted) := by
  induction m with
  | nil =>
    unfold Memory.write at h
    split at h <;> simp_all
  | cons q rest ih =>
    obtain ⟨k, x⟩ := q
    unfold Memory.write at h
    split at h
    · split at h <;> simp_all
      tauto
    · split at h
      · split at h <;> simp_all
        tauto
      · rcases List.mem_cons.mp h with rfl | h
        · simp
        · rcases ih h with h | h
          · simp [h]
          · exact .inr h

/-- A write keeps the canonical form. -/
theorem Memory.write_wf {m : Memory} (h : m.wf) (i : Nat) (v : Elem) : (m.write i v).wf := by
  refine ⟨?_, fun p hp => ?_⟩
  · obtain ⟨hs, -⟩ := h
    induction m with
    | nil =>
      unfold Memory.write
      split <;> simp
    | cons q rest ih =>
      obtain ⟨k, x⟩ := q
      rw [List.pairwise_cons] at hs
      unfold Memory.write
      split
      · split
        · exact List.pairwise_cons.mpr hs
        · refine List.pairwise_cons.mpr ⟨fun p hp => ?_, List.pairwise_cons.mpr hs⟩
          rcases List.mem_cons.mp hp with rfl | hp
          · assumption
          · exact Nat.lt_trans ‹_› (hs.1 p hp)
      · split
        · split
          · exact hs.2
          · subst i
            exact List.pairwise_cons.mpr hs
        · refine List.pairwise_cons.mpr ⟨fun p hp => ?_, ih hs.2⟩
          rcases Memory.mem_write hp with hp | ⟨rfl, -⟩
          · exact hs.1 p hp
          · show k < i
            omega
  · rcases Memory.mem_write hp with hp | ⟨rfl, hv⟩
    · exact h.2 p hp
    · exact hv

/-- A write inside the index space of an element that fits keeps the bounds. -/
theorem Memory.write_fits {m : Memory} {w i : Nat} {v : Elem} (h : m.fits w) (hi : i < 2 ^ 32) (hv : v < 2 ^ w) :
    (m.write i v).fits w := by
  intro p hp
  rcases Memory.mem_write hp with hp | ⟨rfl, -⟩
  · exact h p hp
  · exact ⟨hi, hv⟩

/-- A read after a write: the element written at its index, the old element elsewhere (R42, R46). -/
theorem Memory.read_write {m : Memory} (h : m.wf) (i : Nat) (v : Elem) (k : Nat) :
    (m.write i v).read k = if k = i then v else m.read k := by
  induction m with
  | nil =>
    unfold Memory.write
    split <;> simp_all [Memory.read]
  | cons q rest ih =>
    obtain ⟨a, x⟩ := q
    obtain ⟨hs, hu⟩ := h
    rw [List.pairwise_cons] at hs
    have ih := ih ⟨hs.2, fun p hp => hu p (by simp [hp])⟩
    have hlow : ∀ j, j ≤ a → Memory.read rest j = Memory.unlisted := fun j hj =>
      Memory.read_of_lt fun p hp => Nat.lt_of_le_of_lt hj (hs.1 p hp)
    unfold Memory.write
    split
    · split
      · by_cases hk : k = i
        · subst hk
          rw [if_pos rfl, Memory.read, if_neg (by omega), hlow k (by omega)]
          exact (‹v = _›).symm
        · rw [if_neg hk]
      · by_cases hk : k = i
        · simp [Memory.read, hk]
        · rw [if_neg hk, Memory.read, if_neg hk]
    · split
      · subst i
        split
        · by_cases hk : k = a
          · subst hk
            rw [if_pos rfl, hlow k (by omega)]
            exact (‹v = _›).symm
          · simp [Memory.read, hk]
        · by_cases hk : k = a <;> simp [Memory.read, hk]
      · rw [Memory.read, Memory.read]
        by_cases hk : k = a
        · rw [if_pos hk, if_pos hk, if_neg (by omega)]
        · rw [if_neg hk, if_neg hk, ih]

/-- A memory within the bounds reads elements of ELEM_W bits. -/
theorem Memory.read_lt {m : Memory} {w : Nat} (h : m.fits w) (i : Nat) : m.read i < 2 ^ w := by
  induction m with
  | nil => exact Nat.two_pow_pos w
  | cons q rest ih =>
    obtain ⟨k, x⟩ := q
    unfold Memory.read
    split
    · exact (h (k, x) (by simp)).2
    · exact ih fun p hp => h p (by simp [hp])

/-- The swap of R136 keeps the canonical form. -/
theorem Memory.swap_wf {m : Memory} (h : m.wf) (r j : Nat) : (m.swap r j).wf :=
  Memory.write_wf (Memory.write_wf h _ _) _ _

/-- The swap of R136 keeps the bounds. -/
theorem Memory.swap_fits {m : Memory} {w r j : Nat} (h : m.fits w) (hr : r < 2 ^ 32) (hj : j < 2 ^ 32) :
    (m.swap r j).fits w :=
  Memory.write_fits (Memory.write_fits h hj (Memory.read_lt h r)) hr (Memory.read_lt h j)

/-- The swap of R136 exchanges two elements and touches no other (R136). -/
theorem Memory.read_swap {m : Memory} (h : m.wf) (r j k : Nat) :
    (m.swap r j).read k = m.read (Equiv.swap r j k) := by
  rw [Memory.swap, Memory.read_write (Memory.write_wf h _ _), Memory.read_write h]
  by_cases hr : k = r
  · simp [hr]
  · by_cases hj : k = j
    · subst hj
      simp [hr]
    · rw [if_neg hr, if_neg hj, Equiv.swap_apply_of_ne_of_ne hr hj]

/-- The memory right after reset is in canonical form. -/
theorem Memory.reset_wf : State.reset.seq.wf := ⟨List.Pairwise.nil, fun _ h => nomatch h⟩

/-- A host store keeps the canonical form. -/
theorem hostStore_seq_wf {s : State} (h : s.seq.wf) (i : BitVec 32) (x : Elem) : (hostStore i x s).seq.wf :=
  Memory.write_wf h _ _

/-- Reset keeps SEQ (R33, R202). -/
theorem applyReset_seq (s : State) : (applyReset s).seq = s.seq := rfl

end Sys2Proof.Machine
end

