-- ==== Sys2Proof/Laws/PerInstr.lean ====
section
/-! SUPPORT. Facts about every command as syntax, one lemma per constructor: its encoding stands in its own row of the opcode
map, with reserved bits zero (R61, R64). -/

namespace Sys2Proof.Laws.OpcodeRow

/-- The encoded word selects the row of its command, and its reserved bits are 0. -/
def Statement (i : Instr) : Prop := (opRow i).selects (encode i).cw = true ∧ rsvField (encode i).cw = 0

theorem nop : Statement .nop := by
  unfold Statement
  decide

theorem construct (ver : BitVec 8) (arg : Arg) : Statement (.construct ver arg) := by
  revert ver
  simp only [Statement, opRow, encode]
  decide

theorem seed (arg : Arg) : Statement (.seed arg) := by
  simp only [Statement, opRow, encode]
  decide

theorem nextRaw : Statement .nextRaw := by
  unfold Statement
  decide

theorem get : Statement .get := by
  unfold Statement
  decide

theorem shuffle (arg : Arg) : Statement (.shuffle arg) := by
  simp only [Statement, opRow, encode]
  decide

theorem rdcfg (sel : BitVec 8) : Statement (.rdcfg sel) := by
  revert sel
  simp only [Statement, opRow, encode]
  decide

end Sys2Proof.Laws.OpcodeRow
end

