-- ==== Sys2Proof/Tests/Slice0.lean ====
section
/-! SUPPORT. Tests. Words and results come from spec/30_encoding.md (the encodings written out) and
spec/95_test_vectors.md (V, P: its vectors and programs); no expected value is the model's own. Then, for every obligation
with hypotheses, a witness that meets them. -/

namespace Sys2Proof.Machine.Tests

open Sys2Proof

/-! ## Well-formedness: the one check, with the term it refuses (R69 (d)) -/

theorem test_wf_accepts_selector_5 : (Instr.rdcfg 5).wf = true := by decide
theorem test_wf_refuses_selector_6 : (Instr.rdcfg 6).wf = false := by decide
theorem test_wf_refuses_selector_255 : (Instr.rdcfg 255).wf = false := by decide
theorem test_wf_accepts_unsupported_version : (Instr.construct 0xFF 0).wf = true := by decide

/-! ## Decoding: words written out bit by bit, `rsv_imm8_op` (R61, R64; 30_encoding.md section 7, V1, V2) -/

theorem test_decode_nop : decode ⟨0b0000000000000000_00000000_00000000, 0⟩ = .ok .nop := by decide
theorem test_decode_construct_xs128 :
    decode ⟨0b0000000000000000_00001010_00000001, 42⟩ = .ok (.construct 0b00001010 42) := by decide
theorem test_decode_construct_255 :
    decode ⟨0b0000000000000000_11111111_00000001, 0⟩ = .ok (.construct 255 0) := by decide
theorem test_decode_seed :
    decode ⟨0b0000000000000000_00000000_00000010, 0x7FFFFFFFFFFFFFFF⟩ = .ok (.seed 9223372036854775807) := by decide
theorem test_decode_nextRaw : decode ⟨0b0000000000000000_00000000_00000011, 0⟩ = .ok .nextRaw := by decide
theorem test_decode_get : decode ⟨0b0000000000000000_00000000_00000100, 0⟩ = .ok .get := by decide
theorem test_decode_shuffle :
    decode ⟨0b0000000000000000_00000000_00000101, 0xFFFFFFFFFFFFFFFF⟩ = .ok (.shuffle 18446744073709551615) := by decide
theorem test_decode_rdcfg : decode ⟨0b0000000000000000_00000101_00000110, 0⟩ = .ok (.rdcfg 5) := by decide
theorem test_decode_table_bits : decodeTableWord 96 (42 * 2 ^ 32 + 0x00000A01) = some (.construct 0x0A 42) := by decide
theorem test_decode_table_short : decodeTableWord 32 0x00000005 = some (.shuffle 0) := by decide

/-- V2: one illegal word for each test of R69, and the first test first. -/
theorem test_decode_illegal :
    decode ⟨0x80000001, 0⟩ = .error .reservedBits ∧ decode ⟨0x00010003, 0⟩ = .error .reservedBits ∧
    decode ⟨0xFFFFFFFF, 0⟩ = .error .reservedBits ∧
    decode ⟨0x00000007, 0⟩ = .error .unknownOpcode ∧ decode ⟨0x000000FF, 0⟩ = .error .unknownOpcode ∧
    decode ⟨0x00000100, 0⟩ = .error .immNotZero ∧ decode ⟨0x00000102, 0⟩ = .error .immNotZero ∧
    decode ⟨0x00000104, 0⟩ = .error .immNotZero ∧ decode ⟨0x00000205, 0⟩ = .error .immNotZero ∧
    decode ⟨0x00000606, 0⟩ = .error .badSelector ∧ decode ⟨0x0000FF06, 0⟩ = .error .badSelector := by decide

/-- V3: unsupported identifiers, one for each reason. -/
theorem test_unsupported_versions :
    ∀ ver ∈ ([0x01, 0x02, 0x05, 0x06, 0x03, 0x07, 0x0B, 0x0C, 0x0D, 0x0E, 0x0F, 0x11, 0x1B, 0x1C, 0x20, 0x2A, 0x80, 0xFF] :
      List (BitVec 8)), supported ver = false := by decide

/-! ## Small states -/

/-- The parameters of the vectors: the illustrative LCG pairs, the default shifts, BD_BITS = 2. -/
def testConfig : Config := ⟨25173, 13849, 69069, 1, ⟨13, 17, 5⟩, 2, 8⟩

/-- They are admissible; that the shifts are is a law (R100). -/
theorem testConfig_ok : testConfig.Ok := ⟨by decide, by decide, by decide, xs32Default_oneCycle, by decide, by decide⟩

/-- A block without an instance. -/
def blank : State where
  config := testConfig
  configured := false
  ver := 0
  s0 := 0
  s1 := 0
  s2 := 0
  s3 := 0
  tab := [0, 0, 0, 0]
  cur := 0
  n := 0
  j := 0
  b := 0
  hi := 0
  r := 0
  t0 := 0
  t1 := 0
  busy := false
  phase := .loop
  seq := []
  host := []
  responses := []

/-- A block with an instance and these state words. -/
def ready (ver : BitVec 8) (a b c d : Word) : State := { blank with configured := true, ver := ver, s0 := a, s1 := b, s2 := c, s3 := d }

/-- After CONSTRUCT XS128, 42 (V10). -/
def ready128 : State := ready 0x0A 3656366743 2555083836 238746046 365226860

/-- After CONSTRUCT XS128_BD, 42, with BD_BITS = 2 (V14). -/
def ready128Bd : State :=
  { ready 0x1A 1915941066 2870739003 2578514367 4127658768 with
    tab := [2975584321, 1915941066, 2870739003, 2578514367], cur := 4127658768 }

/-- What a step answered, if it answered. -/
def answer : Host.Outcome State Fault Refusal → Option Response
  | .next t => t.responses.head?
  | .fault _ => none
  | .refused _ => none

/-- A field of the next state. -/
def after {α : Type} (f : State → α) : Host.Outcome State Fault Refusal → Option α
  | .next t => some (f t)
  | .fault _ => none
  | .refused _ => none

/-- The four state words. -/
def words (s : State) : Word × Word × Word × Word := (s.s0, s.s1, s.s2, s.s3)

/-! ## One step of each command -/

/-- P5, command 10. -/
theorem test_nop : answer (exec .nop blank) = some ⟨.ok, 0⟩ := by decide

/-- V10, last row. -/
theorem test_construct_xs128 :
    after words (exec (.construct 0x0A 42) blank) = some (3656366743, 2555083836, 238746046, 365226860) := by decide

/-- V13, second row: the version is checked before the seed. -/
theorem test_construct_order :
    answer (exec (.construct 0x03 0xFFFFFFFFFFFFFFFF) blank) = some ⟨.unsupportedVersion, 0⟩ := by decide

/-- V10: a seed that masks to 0 becomes 1. -/
theorem test_seed_xs32_fallback : after State.s0 (exec (.seed 0x100000000) (ready 0x09 5 0 0 0)) = some 1 := by decide

/-- V14, row 5: the table in order, then CUR. -/
theorem test_seed_fills_table :
    after (fun t => (t.tab, t.cur)) (exec (.seed 42) (ready 0x10 0 0 0 0)) =
      some ([22539, 42944, 26841, 6182], 50871) := by decide

/-- V25: a 26-bit step that wraps. -/
theorem test_nextRaw_lcg26 : answer (exec .nextRaw (ready 0x04 67108863 0 0 0)) = some ⟨.ok, 67039796⟩ := by decide

/-- V21: the left shift loses its top bits. -/
theorem test_nextRaw_xs32 : answer (exec .nextRaw (ready 0x09 2147483648 0 0 0)) = some ⟨.ok, 2148024320⟩ := by decide

/-- V40, first GET: the returned output, CUR and the refilled table. -/
theorem test_get_wrapped :
    after (fun t => (t.responses, t.cur, t.tab)) (exec .get ready128Bd) =
      some ([⟨.ok, 4127658768⟩], 2975584321, [324409786, 1915941066, 2870739003, 2578514367]) := by decide

/-- V45: an unwrapped GET is a raw output. -/
theorem test_get_unwrapped : answer (exec .get ready128) = some ⟨.ok, 2975584321⟩ := by decide

/-- P4, command 3: the guard of a 16-bit version at NSTATES + 1. -/
theorem test_shuffle_guard : answer (exec (.shuffle 65537) (ready 0x00 42 0 0 0)) = some ⟨.sequenceTooLong, 0⟩ := by decide

/-- V52, the rejected draw at J = 5: the top 3 bits of 50871 are 6, and the controller draws again. -/
theorem test_shuffle_rejects :
    after (fun t => (t.r, t.phase)) (runSteps 2
      { ready 0x00 6182 0 0 0 with n := 6, j := 5, b := 3, hi := 8, busy := true, phase := .draw }) =
      some (6, .draw) := by decide

/-- P9, command 5. -/
theorem test_rdcfg_mask : answer (exec (.rdcfg 3) (ready 0x04 0 0 0 0)) = some ⟨.ok, 0x3FFFFFF⟩ := by decide

/-- P5, command 3: STATUS answers without an instance (R167). -/
theorem test_rdcfg_status : answer (exec (.rdcfg 5) blank) = some ⟨.ok, 0⟩ := by decide

/-- V51, SHUFFLE 3: two draws, the last swap (1, 2). -/
theorem test_whole_shuffle :
    (shuffleWhole ⟨.xs128, false⟩ 1 3 { ready128 with seq := [(1, 1), (2, 2), (3, 3)] }).map State.seq =
      some [(1, 2), (2, 1), (3, 3)] := by decide

/-! ## Witnesses: decoding -/

theorem witness_StepRunsDecodedCommand :
    ({ ready128 with host := [.command ⟨4, 0⟩] } : State).busy = false ∧ decode ⟨4, 0⟩ = .ok .get ∧
      decodeTableWord 32 4 = some .get := by decide

/-- One word for each clause, at the boundary of each range. -/
theorem witness_IllegalCommandWordAnswered :
    (0x00010000#32).toNat / 2 ^ 16 ≠ 0 ∧ 6 < (0x00000007#32).toNat % 2 ^ 8 ∧
    ((0x00000105#32).toNat % 2 ^ 8 = 5 ∧ (0x00000105#32).toNat / 2 ^ 8 % 2 ^ 8 ≠ 0) ∧
    ((0x00000606#32).toNat % 2 ^ 8 = 6 ∧ 5 < (0x00000606#32).toNat / 2 ^ 8 % 2 ^ 8) ∧
    ((0x00000005#32).toNat % 2 ^ 8 = 5 ∧ (0x00000005#32).toNat / 2 ^ 8 % 2 ^ 8 = 0) ∧
    ((0x00000506#32).toNat % 2 ^ 8 = 6 ∧ (0x00000506#32).toNat / 2 ^ 8 % 2 ^ 8 ≤ 5) ∧
    (0x0000FF01#32).toNat % 2 ^ 8 = 1 ∧
    ({ blank with host := [.command ⟨7, 3⟩] } : State).busy = false ∧ decode ⟨7, 3⟩ = .error .unknownOpcode ∧
    (0x0000FF01#32).toNat / 2 ^ 16 = 0 ∧ supported (BitVec.ofNat 8 ((0x0000FF01#32).toNat / 2 ^ 8 % 2 ^ 8)) = false := by
  decide

theorem witness_SupportedVersionsAreTheTen : (0x20 : BitVec 8) ∉ versionNames.map (·.2) := by decide

theorem witness_DecodeInvertsEncode : (Instr.rdcfg 5).wf = true ∧ (Instr.construct 0xFF 0xFFFFFFFFFFFFFFFF).wf = true := by
  decide

theorem witness_EncodeInvertsDecode : decode ⟨0x00000005, 7⟩ = .ok (.shuffle 7) := by decide

theorem witness_OpcodeRowsDecideDecoding :
    decode ⟨0x00000506, 7⟩ = .ok (.rdcfg 5) ∧ (⟨0x00000006, 0xFFFF00FF⟩ : OpRow) ∈ opRows ∧
      (⟨0x00000006, 0xFFFF00FF⟩ : OpRow).selects 0x00000606 = true := by decide

theorem witness_SeedOperandIsSigned : (-2 ^ 63 : Int) ≤ -2 ^ 63 ∧ (-2 ^ 63 : Int) < 2 ^ 63 := by decide

/-! ## Witnesses: NOP, CONSTRUCT, RDCFG, SEED -/

theorem witness_ConstructMakesSeededInstance :
    versionOf 0x1A = some ⟨.xs128, true⟩ ∧ versionOf 0x00 = some ⟨.lcg16, false⟩ ∧
      (9223372036854775807 : Arg).toNat < 2 ^ 63 := by decide

theorem witness_ConstructErrorsChangeNothing :
    supported 0x20 = false ∧ supported 0x0A = true ∧ 2 ^ 63 ≤ (0x8000000000000000 : Arg).toNat := by decide

theorem witness_ConstructForgetsOldInstance :
    blank.config = ready128Bd.config ∧ versionOf 0x1A = some ⟨.xs128, true⟩ ∧ (0 : Arg).toNat < 2 ^ 63 := by decide

theorem witness_RdcfgReturnsConstants :
    (0 : BitVec 8).toNat < 5 ∧ (4 : BitVec 8).toNat < 5 ∧ blank.configured = false ∧ ready128Bd.configured = true ∧
      versionOf ready128Bd.ver = some ⟨.xs128, true⟩ := by decide

theorem witness_SeedErrorsChangeNothing :
    blank.configured = false ∧ ready128.configured = true ∧ versionOf ready128.ver = some ⟨.xs128, false⟩ ∧
      (0xFFFFFFFF0000002A : Arg).getLsbD 63 = true ∧ (0x7FFFFFFFFFFFFFFF : Arg).getLsbD 63 = false := by decide

/-- One state for each of the three widths. -/
theorem witness_SeedLcgLoadsSeed :
    (ready 0x00 0 0 0 0).configured = true ∧ versionOf (ready 0x00 0 0 0 0).ver = some ⟨.lcg16, false⟩ ∧
      versionOf (ready 0x04 0 0 0 0).ver = some ⟨.lcg26, false⟩ ∧ versionOf (ready 0x08 0 0 0 0).ver = some ⟨.lcg32, false⟩ ∧
      (65578 : Arg).toNat < 2 ^ 63 := by decide

theorem witness_SeedXs32ReplacesZero :
    (ready 0x09 5 0 0 0).configured = true ∧ versionOf (ready 0x09 5 0 0 0).ver = some ⟨.xs32, false⟩ ∧
      (0x100000000 : Arg).toNat < 2 ^ 63 ∧ (0x100000000 : Arg).toNat % 2 ^ 32 = 0 := by decide

theorem witness_SeedXs128IteratesAndWarmsUp :
    ready128.configured = true ∧ versionOf ready128.ver = some ⟨.xs128, false⟩ ∧
      (9223372036854775807 : Arg).toNat < 2 ^ 63 := by decide

theorem witness_SeedWrappedFillsTable :
    ready128Bd.configured = true ∧ versionOf ready128Bd.ver = some ⟨.xs128, true⟩ ∧ (42 : Arg).toNat < 2 ^ 63 ∧
      ready128Bd.config.bdBits = 2 := by decide

theorem witness_SeedTruncatesToWidth :
    (ready 0x00 0 0 0 0).configured = true ∧ versionOf (ready 0x00 0 0 0 0).ver = some ⟨.lcg16, false⟩ ∧
      (65578 : Arg).toNat < 2 ^ 63 ∧ (42 : Arg).toNat < 2 ^ 63 ∧
      (65578 : Arg).toNat % 2 ^ (⟨.lcg16, false⟩ : Version).bits = (42 : Arg).toNat % 2 ^ (⟨.lcg16, false⟩ : Version).bits := by
  decide

/-! ## Witnesses: NEXT_RAW, GET -/

/-- The three widths, wrapped and not. -/
theorem witness_NextRawStepsLcg :
    (ready 0x00 0 0 0 0).configured = true ∧ versionOf (ready 0x00 0 0 0 0).ver = some ⟨.lcg16, false⟩ ∧
      versionOf (ready 0x14 0 0 0 0).ver = some ⟨.lcg26, true⟩ ∧ versionOf (ready 0x18 0 0 0 0).ver = some ⟨.lcg32, true⟩ := by
  decide

theorem witness_NextRawStepsXs32 :
    (ready 0x19 1 0 0 0).configured = true ∧ versionOf (ready 0x19 1 0 0 0).ver = some ⟨.xs32, true⟩ := by decide

theorem witness_NextRawStepsXs128 :
    ready128.configured = true ∧ versionOf ready128.ver = some ⟨.xs128, false⟩ := by decide

theorem witness_RawOutputsStayInRange :
    testConfig.Ok ∧ RawOk .lcg26 (ready 0x04 67108863 0 0 0) ∧ RawOk .xs32 (ready 0x09 1 0 0 0) ∧ RawOk .xs128 ready128 :=
  ⟨testConfig_ok, by decide⟩

theorem witness_LcgHasFullPeriod : testConfig.Ok ∧ (65535 : Word).toNat < 2 ^ 16 ∧ (4294967295 : Word).toNat < 2 ^ 32 :=
  ⟨testConfig_ok, by decide⟩

/-- The amounts at both ends of their range, and an admissible triple. -/
theorem witness_Xs32StepPermutesWords :
    ((1 ≤ (⟨1, 31, 1⟩ : Xs32Shift).a ∧ (⟨1, 31, 1⟩ : Xs32Shift).a ≤ 31) ∧
      (1 ≤ (⟨1, 31, 1⟩ : Xs32Shift).b ∧ (⟨1, 31, 1⟩ : Xs32Shift).b ≤ 31)) ∧ testConfig.Ok ∧ (1 : Word) ≠ 0 :=
  ⟨by decide, testConfig_ok, by decide⟩

theorem witness_ReplayAfterSeedingRepeats : blank.config = ready128.config := by decide

theorem witness_GetWrappedUsesTable :
    ready128Bd.configured = true ∧ versionOf ready128Bd.ver = some ⟨.xs128, true⟩ ∧
      (⟨.xs128, true⟩ : Version).wrapped = true := by decide

/-- The invariant of a block with an unwrapped instance. -/
theorem witness_Inv_ready128 : ready128.Inv :=
  ⟨testConfig_ok, by decide, by decide, by decide, by decide, fun _ => ⟨⟨.xs128, false⟩, by decide, by decide, by decide⟩,
    fun h => by simp [ready128, ready, blank] at h⟩

/-- The invariant of a block with a wrapped instance (the second clause of GetWrappedUsesTable). -/
theorem witness_Inv_ready128Bd : ready128Bd.Inv :=
  ⟨testConfig_ok, by decide, by decide, by decide, by decide, fun _ => ⟨⟨.xs128, true⟩, by decide, by decide,
      fun _ => ⟨by simp [ready128Bd, OutputOk, RawAlg.bits], by decide⟩⟩, fun h => by simp [ready128Bd, ready, blank] at h⟩

theorem witness_GetUnwrappedIsNextRaw :
    ready128.configured = true ∧ versionOf ready128.ver = some ⟨.xs128, false⟩ ∧
      (⟨.xs128, false⟩ : Version).wrapped = false := by decide

theorem witness_GetConservesHeldOutputs :
    (⟨.xs128, true⟩ : Version).wrapped = true ∧ ready128Bd.tab.length = 2 ^ ready128Bd.config.bdBits := by decide

/-! ## Witnesses: SHUFFLE -/

/-- NSTATES itself and NSTATES + 1, on 32 bits. -/
theorem witness_ShuffleGuardsLengthAndStarts :
    ready128.configured = true ∧ versionOf ready128.ver = some ⟨.xs128, false⟩ ∧
      2 ^ (⟨.xs128, false⟩ : Version).bits < (4294967297 : Arg).toNat ∧
      (4294967296 : Arg).toNat ≤ 2 ^ (⟨.xs128, false⟩ : Version).bits := by decide

/-- A controller at position J = 1 of a SHUFFLE 2, with the draw R. -/
def shuffling (p : Phase) (j : BitVec 33) (r : Word) : State :=
  { ready128 with n := 2, j := j, b := 1, hi := 2, r := r, busy := true, phase := p, seq := [(0, 7), (1, 9)] }

/-- The clauses of the phase table: each phase, and both sides of each comparison at its boundary. -/
theorem witness_ControllerFollowsPhaseTable :
    (shuffling .loop 2 0).busy = true ∧ HostHeldOff (shuffling .loop 2 0).host ∧
      (shuffling .loop 2 0).n.toNat ≤ (shuffling .loop 2 0).j.toNat ∧
      (shuffling .loop 1 0).j.toNat < (shuffling .loop 1 0).n.toNat ∧
      (shuffling .width 2 0).j = (shuffling .width 2 0).hi ∧ (shuffling .width 1 0).j ≠ (shuffling .width 1 0).hi ∧
      (shuffling .draw 1 0).configured = true ∧ versionOf (shuffling .draw 1 0).ver = some ⟨.xs128, false⟩ ∧
      (shuffling .test 1 1).r.toNat ≤ (shuffling .test 1 1).j.toNat ∧
      (shuffling .test 1 2).j.toNat < (shuffling .test 1 2).r.toNat ∧
      (shuffling .rdR 1 0).phase = .rdR ∧ (shuffling .rdJ 1 0).phase = .rdJ ∧
      (shuffling .wrJ 1 0).phase = .wrJ ∧ (shuffling .wrR 1 0).phase = .wrR := by decide

/-- With R < J and with R = J. -/
theorem witness_SwapExchangesTwoElements :
    (shuffling .rdR 1 0).seq.wf ∧ (shuffling .rdR 1 0).busy = true ∧ HostHeldOff (shuffling .rdR 1 0).host ∧
      (shuffling .rdR 1 0).phase = .rdR ∧ (shuffling .rdR 1 1).r.toNat = (shuffling .rdR 1 1).j.toNat := by decide

theorem witness_ShortShufflesDrawLittle :
    ready128.Inv ∧ ready128.configured = true ∧ versionOf ready128.ver = some ⟨.xs128, false⟩ ∧ HostHeldOff ready128.host ∧
      (1 : Arg).toNat ≤ 1 :=
  ⟨witness_Inv_ready128, by decide⟩

/-- A SHUFFLE 2 that starts, and ends at its ninth phase. -/
theorem witness_shuffle_ends :
    ∃ s1 t : State, exec (.shuffle 2) ready128 = .next s1 ∧ s1.busy = true ∧ runSteps 9 s1 = .next t ∧ t.busy = false :=
  ⟨_, _, rfl, rfl, rfl, rfl⟩

theorem witness_ControllerRefinesWholeShuffle :
    ready128.Inv ∧ ready128.configured = true ∧ versionOf ready128.ver = some ⟨.xs128, false⟩ ∧ ready128.host = [] ∧
      (2 : Arg).toNat ≤ (⟨.xs128, false⟩ : Version).nstates ∧
      (shuffleWhole ⟨.xs128, false⟩ 1 (2 : Arg).toNat ready128).isSome = true :=
  ⟨witness_Inv_ready128, by decide⟩

/-- The same generator over other elements, the unused CUR different too. -/
def otherElements : State := { ready128 with seq := [(0, 7), (1, 9)], cur := 5 }

theorem witness_ShufflePermutesPositions :
    ready128.Inv ∧ ready128.host = [] ∧ versionOf ready128.ver = some ⟨.xs128, false⟩ ∧
      (otherElements.seq.wf ∧ otherElements.configured = true ∧ otherElements.ver = ready128.ver ∧
        SameGenerator ⟨.xs128, false⟩ ready128 otherElements) ∧
      ∃ s1 t : State, exec (.shuffle 2) ready128 = .next s1 ∧ s1.busy = true ∧ runSteps 9 s1 = .next t ∧ t.busy = false :=
  ⟨witness_Inv_ready128, rfl, by decide, ⟨by decide, rfl, rfl, rfl, rfl, fun _ => ⟨rfl, rfl, rfl⟩, fun h => by cases h⟩,
    witness_shuffle_ends⟩

theorem witness_ShuffleConsumesOneGetPerDraw :
    ready128.host = [] ∧ versionOf ready128.ver = some ⟨.xs128, false⟩ ∧
      ∃ s1 t : State, exec (.shuffle 2) ready128 = .next s1 ∧ s1.busy = true ∧ runSteps 9 s1 = .next t ∧ t.busy = false ∧
        drawSteps 9 s1 = 1 :=
  ⟨rfl, by decide, _, _, rfl, rfl, rfl, rfl, rfl⟩

/-- An xorshift32 instance whose shift amounts leave its state where it is: every draw of 2 bits is 3, and J is 2. (R100 shuts
such amounts out of a build; the statement is about every state, those that no run reaches too.) -/
def endless : State :=
  { ready 0x09 0xC0000001 0 0 0 with
    config := { testConfig with xs32Shift := ⟨31, 31, 31⟩ }, n := 3, j := 2, b := 2, hi := 4, busy := true, phase := .draw }

theorem endless_outputs (k : Nat) : (getOutputs ⟨.xs32, false⟩ k endless).2 = endless := by
  induction k with
  | zero => rfl
  | succ k ih =>
    have h : (getOutput ⟨.xs32, false⟩ endless).2 = endless := by decide
    rw [getOutputs, h]
    exact ih

theorem witness_EndlessShuffleStaysBusy :
    endless.busy = true ∧ endless.phase = .draw ∧ endless.host = [] ∧ endless.configured = true ∧
      versionOf endless.ver = some ⟨.xs32, false⟩ ∧
      ∀ k : Nat, endless.j.toNat < (drawOf (⟨.xs32, false⟩ : Version).bits endless.b.toNat
        (getOutput ⟨.xs32, false⟩ (getOutputs ⟨.xs32, false⟩ k endless).2).1).toNat :=
  ⟨rfl, rfl, rfl, rfl, by decide, fun k => by rw [endless_outputs]; decide⟩

/-- A 16-bit instance and the longest sequence it takes. -/
theorem witness_LcgAndXs32ShufflesEnd :
    (ready 0x00 42 0 0 0).Inv ∧ (ready 0x00 42 0 0 0).host = [] ∧ (ready 0x00 42 0 0 0).configured = true ∧
      versionOf (ready 0x00 42 0 0 0).ver = some ⟨.lcg16, false⟩ ∧ (⟨.lcg16, false⟩ : Version).wrapped = false ∧
      (65536 : Arg).toNat ≤ (⟨.lcg16, false⟩ : Version).nstates :=
  ⟨⟨testConfig_ok, by decide, by decide, by decide, by decide, fun _ => ⟨⟨.lcg16, false⟩, by decide, by decide, by decide⟩,
    fun h => by simp [ready, blank] at h⟩, by decide⟩

/-! ## Witnesses: errors, responses, writers -/

theorem witness_NotConstructedAnswered : blank.configured = false ∧ (4 : BitVec 8).toNat ≤ 4 := by decide

theorem witness_ErrorsHaveNoEffect :
    ∃ t : State, acceptCommand ⟨4, 0⟩ blank = .next t ∧ t.responses = ⟨.notConstructed, 0⟩ :: blank.responses ∧
      Status.notConstructed ≠ .ok :=
  ⟨_, rfl, rfl, by decide⟩

/-- The guard on the state, and a command for each error: illegal, without an instance, unsupported, negative, too long; a
command with none. -/
theorem witness_FirstErrorIsReported :
    (ready128.configured = true → supported ready128.ver = true) ∧ decode ⟨7, 0⟩ = .error .unknownOpcode ∧
      blank.configured = false ∧ decode ⟨4, 0⟩ = .ok .get ∧
      decode ⟨0x00000301, 0xFFFFFFFFFFFFFFFF⟩ = .ok (.construct 3 0xFFFFFFFFFFFFFFFF) ∧ supported 3 = false ∧
      seedValue 0xFFFFFFFFFFFFFFFF < 0 ∧ decode ⟨2, 0xFFFFFFFFFFFFFFFF⟩ = .ok (.seed 0xFFFFFFFFFFFFFFFF) ∧
      decode ⟨5, 4294967297⟩ = .ok (.shuffle 4294967297) ∧ versionOf ready128.ver = some ⟨.xs128, false⟩ ∧
      (⟨.xs128, false⟩ : Version).nstates < (4294967297 : Arg).toNat := by decide

theorem witness_OneResponsePerCommand :
    (∃ t : State, exec (.shuffle 2) ready128 = .next t ∧ t.busy = true) ∧
      (shuffling .loop 2 0).busy = true ∧ HostHeldOff (shuffling .loop 2 0).host ∧
      ∃ t : State, step (shuffling .loop 2 0) = .next t :=
  ⟨⟨_, rfl, rfl⟩, rfl, by decide, _, rfl⟩

theorem witness_HostIsHeldOffWhileBusy :
    blank.busy = false ∧ blank.host = [] ∧ ({ blank with host := [.wait] } : State).host = .wait :: [] ∧
      (shuffling .loop 1 0).host = [] ∧ ({ shuffling .loop 1 0 with host := [.wait] } : State).busy = true ∧
      ({ shuffling .loop 1 0 with host := [.command ⟨4, 0⟩] } : State).busy = true ∧
      HostMove.command ⟨4, 0⟩ ≠ .wait ∧ HostMove.command ⟨4, 0⟩ ≠ .reset ∧ HostMove.store 0 1 ≠ .wait ∧
      HostMove.store 0 1 ≠ .reset := by decide

theorem witness_OnlyResetClearsConfigured :
    (∃ t : State, step { ready128 with host := [.reset] } = .next t ∧ ready128.configured = true ∧ t.configured = false) ∧
      ∃ t : State, step { blank with host := [.command ⟨0x00000A01, 42⟩] } = .next t ∧ blank.configured = false ∧
        t.configured = true :=
  ⟨⟨_, rfl, rfl, rfl⟩, _, rfl, rfl, rfl⟩

theorem witness_OnlyConstructWritesVer :
    (∃ t : State, step { ready128 with host := [.reset] } = .next t ∧ t.ver ≠ ready128.ver) ∧
      ∃ t : State, step { blank with host := [.command ⟨0x00000A01, 42⟩] } = .next t ∧ t.ver ≠ blank.ver :=
  ⟨⟨_, rfl, by decide⟩, _, rfl, by decide⟩

/-- A GET that moves the state words and the table. -/
theorem witness_GeneratorHasFewWriters :
    ∃ t : State, step { ready128Bd with host := [.command ⟨4, 0⟩] } = .next t ∧
      words t ≠ words ready128Bd ∧ (t.tab, t.cur) ≠ (ready128Bd.tab, ready128Bd.cur) :=
  ⟨_, rfl, by decide, by decide⟩

/-- The controller about to write element J of a SHUFFLE 2, R = 0. -/
def writing : State := { shuffling .wrJ 1 0 with t0 := 7, t1 := 9 }

theorem witness_OnlyShuffleReachesSeq :
    writing.Inv ∧ ∃ t : State, step writing = .next t ∧ t.memRead 1 ≠ writing.memRead 1 :=
  ⟨⟨testConfig_ok, by decide, by decide, by decide, by decide, fun _ => ⟨⟨.xs128, false⟩, by decide, by decide, by decide⟩,
    fun _ => ⟨rfl, ⟨.xs128, false⟩, by decide, by decide, by decide, by decide, by decide, by decide, by decide, by decide,
      by decide, by decide, by decide, by decide, by decide, by decide⟩⟩, _, rfl, by decide⟩

theorem witness_ElementsNeverInfluence :
    SameButElements writing { writing with seq := [(0, 1)], t0 := 3 } ∧ ∃ t : State, step writing = .next t :=
  ⟨rfl, _, rfl⟩

theorem witness_ParametersNeverChange : ∃ t : State, step writing = .next t := ⟨_, rfl⟩

theorem witness_HostStoreWritesOneElement :
    Memory.wf [(0, 7)] ∧ blank.busy = false ∧ (255 : Elem) < 2 ^ blank.config.elemW := by decide

theorem witness_ResetStateIsUnconfigured :
    decodeTableWord 32 3 = some .nextRaw ∧ decodeTableWord 32 4 = some .get := by decide

theorem witness_ResetAbandonsCommand :
    ({ writing with host := [.reset] } : State).host = .reset :: [] ∧ writing.busy = true := by decide

/-- A state of the invariant in the middle of a SHUFFLE, and its step. -/
theorem witness_StepKeepsInvariant : writing.Inv ∧ ∃ t : State, step writing = .next t :=
  ⟨witness_OnlyShuffleReachesSeq.1, _, rfl⟩

theorem witness_StepAlwaysAnswers : ready128Bd.Inv := witness_Inv_ready128Bd

theorem witness_BuildParametersAreAdmissible :
    (25173 : BitVec 16).toNat % 4 = 1 ∧ (13849 : BitVec 16).toNat % 2 = 1 ∧ (69069 : BitVec 26).toNat % 4 = 1 ∧
      (1 : BitVec 26).toNat % 2 = 1 := by decide

/-- An error delivered, and one answer for each of the five codes. -/
theorem witness_OutcomesHaveTheRulesNumbers :
    (∃ t : State, raise .illegalCommand blank = .next t) ∧
      (answer (acceptCommand ⟨2, 0xFFFFFFFFFFFFFFFF⟩ ready128)).map (fun r => r.status.code.toNat) = some 1 ∧
      (answer (acceptCommand ⟨0x00000301, 0⟩ blank)).map (fun r => r.status.code.toNat) = some 2 ∧
      (answer (acceptCommand ⟨5, 4294967297⟩ ready128)).map (fun r => r.status.code.toNat) = some 3 ∧
      (answer (acceptCommand ⟨7, 0⟩ blank)).map (fun r => r.status.code.toNat) = some 4 ∧
      (answer (acceptCommand ⟨0x00000406, 0⟩ blank)).map (fun r => r.status.code.toNat) = some 5 :=
  ⟨⟨_, rfl⟩, by decide, by decide, by decide, by decide, by decide⟩

end Sys2Proof.Machine.Tests
end

section
/-! PROOFS of 00_scope.md. Every step answers, but where a register without a value would be read (R6, R70, U1); and the
parameters of the build are exactly the admissible ones (R7, R97, R100). -/

namespace Sys2Proof.Machine

/-! ### Progress: every outcome of a step is a next state or the one fault (U1) -/

/-- What a step may read holds a value: VER names a version while CONFIGURED is 1 (R24), and CONFIGURED is
1 while a controller runs and may draw (R25, R134). -/
def State.Readable (s : State) : Prop :=
  (s.configured = true → ∃ v, versionOf s.ver = some v) ∧ (s.busy = true → s.configured = true)

/-- The outcome is a next state, or the fault of U1 in a state that is not readable; never a refusal. -/
def Answers (s : State) (o : Host.Outcome State Fault Refusal) : Prop :=
  (∃ t, o = .next t) ∨ (¬s.Readable ∧ o = .fault .valuelessRead)

theorem State.Inv.readable {s : State} (h : s.Inv) : s.Readable :=
  ⟨fun hc => (h.generator hc).imp fun _ hv => hv.1, fun hb => (h.controller hb).1⟩

theorem Answers.exists_next {s : State} {o : Host.Outcome State Fault Refusal} (h : Answers s o) (hs : s.Readable) :
    ∃ t, o = .next t :=
  h.resolve_right fun hf => hf.1 hs

theorem Answers.ne_refused {s : State} {o : Host.Outcome State Fault Refusal} (h : Answers s o) (r : Refusal) :
    o ≠ .refused r := by
  obtain ⟨_, rfl⟩ | ⟨_, rfl⟩ := h <;> nofun

theorem answers_next (s t : State) : Answers s (.next t) := .inl ⟨t, rfl⟩

theorem answers_respond (st : Status) (d : BitVec 64) (s t : State) : Answers s (respond st d t) := answers_next s _

theorem answers_raise (e : Error) (s t : State) : Answers s (raise e t) := answers_respond _ _ s t

/-- The guard faults only where CONFIGURED stands beside a VER that names no version (R185, entry 12). -/
theorem answers_withVersion {s : State} {k : Version → Host.Outcome State Fault Refusal} (h : ∀ v, Answers s (k v)) :
    Answers s (withVersion s k) := by
  cases hc : s.configured with
  | false => rw [withVersion_unconfigured hc]; exact answers_raise _ s s
  | true =>
    cases hv : versionOf s.ver with
    | some v => rw [withVersion_some hc hv]; exact h v
    | none =>
      have hr : ¬s.Readable := fun hs => by simpa [hv] using hs.1 hc
      exact .inr ⟨hr, by simp [withVersion, hc, hv]⟩

theorem answers_execConstruct (ver : BitVec 8) (arg : Arg) (s : State) : Answers s (execConstruct ver arg s) := by
  unfold execConstruct
  split
  · exact answers_raise _ s s
  · split
    · exact answers_raise _ s s
    · exact answers_respond _ _ s _

theorem answers_execSeed (arg : Arg) (s : State) : Answers s (execSeed arg s) :=
  answers_withVersion fun v => by
    split
    · exact answers_raise _ s s
    · exact answers_respond _ _ s _

theorem answers_execShuffle (arg : Arg) (s : State) : Answers s (execShuffle arg s) :=
  answers_withVersion fun v => by
    split
    · exact answers_raise _ s s
    · exact answers_next s _

theorem answers_execRdcfg (sel : BitVec 8) (s : State) : Answers s (execRdcfg sel s) := by
  unfold execRdcfg
  split
  · exact answers_respond _ _ s s
  · split
    · exact answers_raise _ s s
    · exact answers_withVersion fun v => answers_respond _ _ s s

/-- No command's meaning refuses, and each faults at most where its guard does. -/
theorem answers_exec (i : Instr) (s : State) : Answers s (exec i s) := by
  cases i with
  | nop => exact answers_respond _ _ s s
  | construct ver arg => exact answers_execConstruct ver arg s
  | seed arg => exact answers_execSeed arg s
  | nextRaw => exact answers_withVersion fun v => answers_respond _ _ s _
  | get => exact answers_withVersion fun v => answers_respond _ _ s _
  | shuffle arg => exact answers_execShuffle arg s
  | rdcfg sel => exact answers_execRdcfg sel s

/-- Every presented word is run or answered as illegal (R70). -/
theorem answers_acceptCommand (c : Command) (s : State) : Answers s (acceptCommand c s) := by
  unfold acceptCommand
  split
  · exact answers_exec _ s
  · exact answers_raise _ s s

/-- A draw faults only where CONFIGURED is 0 under a running controller, or VER names no version (U1). -/
theorem answers_phaseDraw {s : State} (hb : s.busy = true) : Answers s (phaseDraw s) := by
  unfold phaseDraw
  split
  next hc =>
    split
    next => exact answers_next s _
    next hv =>
      have hr : ¬s.Readable := fun hs => by simpa [hv] using hs.1 hc
      exact .inr ⟨hr, rfl⟩
  next hc => exact .inr ⟨fun hs => hc (hs.2 hb), rfl⟩

theorem answers_controllerStep {s : State} (hb : s.busy = true) : Answers s (controllerStep s) := by
  unfold controllerStep
  cases s.phase with
  | loop =>
    show Answers s (phaseLoop s)
    unfold phaseLoop
    split
    · exact answers_respond _ _ s s
    · exact answers_next s _
  | draw => exact answers_phaseDraw hb
  | width | test | rdR | rdJ | wrJ | wrR => exact answers_next s _

theorem answers_blockStep (s : State) : Answers s (blockStep s) := by
  unfold blockStep
  split
  · exact answers_controllerStep ‹_›
  · exact answers_next s s

theorem answers_whenFree {s : State} {move : Host.Outcome State Fault Refusal} (h : Answers s move) :
    Answers s (whenFree s move) := by
  unfold whenFree
  split
  · exact answers_controllerStep ‹_›
  · exact h

/-- The host's moves play no part in what is readable. -/
theorem answers_setHost {s : State} {rest : List HostMove} {o : Host.Outcome State Fault Refusal} :
    Answers (s.setHost rest) o ↔ Answers s o := Iff.rfl

theorem answers_step (s : State) : Answers s (step s) := by
  unfold step hostStep
  split
  next => exact answers_blockStep s
  next => exact answers_setHost.mp (answers_blockStep _)
  next => exact answers_next s _
  next => exact answers_whenFree (answers_next s _)
  next => exact answers_whenFree (answers_setHost.mp (answers_acceptCommand _ _))

/-- Settles O58: a step that does not answer faults in a state that is not readable, and the invariant makes states
readable. -/
theorem stepAlwaysAnswers : Obligations.StepAlwaysAnswers :=
  ⟨fun s hs => (answers_step s).exists_next hs.readable, fun s r => (answers_step s).ne_refused r⟩

/-! ### The parameters of the build (R7, R97, R100) -/

/-- A word is free high bits before given low bits exactly when its residue is those low bits: the form of the build's LCG
parameters (entry 7) is R97's condition. -/
theorem exists_append_eq_iff {n k : Nat} (l : BitVec k) (A : BitVec (n + k)) :
    (∃ a : BitVec n, a ++ l = A) ↔ A.toNat % 2 ^ k = l.toNat := by
  have toNat_append (a : BitVec n) : (a ++ l).toNat = 2 ^ k * a.toNat + l.toNat := by
    rw [BitVec.toNat_append, ← Nat.shiftLeft_add_eq_or_of_lt l.isLt, Nat.shiftLeft_eq, Nat.mul_comm]
  constructor
  · rintro ⟨a, rfl⟩
    rw [toNat_append, Nat.mul_add_mod, Nat.mod_eq_of_lt l.isLt]
  · intro h
    have hdiv : A.toNat / 2 ^ k < 2 ^ n := Nat.div_lt_of_lt_mul (A.isLt.trans_eq (by rw [pow_add, Nat.mul_comm]))
    refine ⟨BitVec.ofNat n (A.toNat / 2 ^ k), BitVec.eq_of_toNat_eq ?_⟩
    rw [toNat_append, BitVec.toNat_ofNat, Nat.mod_eq_of_lt hdiv, ← h, Nat.div_add_mod]

theorem build_ok : Config.build.Ok where
  lcg16 := ⟨(exists_append_eq_iff 1#2 _).mp ⟨_, rfl⟩, (exists_append_eq_iff 1#1 _).mp ⟨_, rfl⟩⟩
  lcg26 := ⟨(exists_append_eq_iff 1#2 _).mp ⟨_, rfl⟩, (exists_append_eq_iff 1#1 _).mp ⟨_, rfl⟩⟩
  shifts := by decide
  oneCycle := xs32Default_oneCycle
  bdBits := Nat.le_of_lt_succ Config.buildBdBits.isLt
  elemW := Nat.le_add_left 1 _

/-- Every pair of R97's residues is some choice of the free high bits, at any width. -/
theorem exists_append_pair {m n : Nat} {A : BitVec (m + 2)} {C : BitVec (n + 1)} (hA : A.toNat % 4 = 1)
    (hC : C.toNat % 2 = 1) : ∃ (a : BitVec m) (c : BitVec n), a ++ 1#2 = A ∧ c ++ 1#1 = C := by
  obtain ⟨a, ha⟩ := (exists_append_eq_iff 1#2 A).mpr hA
  obtain ⟨c, hc⟩ := (exists_append_eq_iff 1#1 C).mpr hC
  exact ⟨a, c, ha, hc⟩

/-- Settles O59: the form of the build's parameters is R97's condition read bit by bit, and (13, 17, 5) meets R100. -/
theorem buildParametersAreAdmissible : Obligations.BuildParametersAreAdmissible :=
  ⟨build_ok, fun _ _ hA hC => exists_append_pair hA hC, fun _ _ hA hC => exists_append_pair hA hC⟩

end Sys2Proof.Machine
end

section
/-! PROOFS of 10_state.md. Who writes CONFIGURED, VER, the state words, TAB and CUR (R21 to R27), that the parameters stand
(R31), the state after reset (R33), and that every step keeps the invariant. -/

namespace Sys2Proof.Machine

/-! ### What a command can do, for all commands at once -/

/-- What a command can do when it answers a next state: issue a response and nothing else, seed the generator, draw one
output, or start the controller. Which response it is, the lemmas of the single commands say. -/
inductive ExecEffect (s : State) : Instr → State → Prop where
  /-- NOP, RDCFG, and every error (R187). -/
  | answers (i : Instr) (r : Response) : ExecEffect s i (s.issue r)
  | constructs {ver : BitVec 8} {arg : Arg} {v : Version} (r : Response) (hv : versionOf ver = some v)
      (hpos : seedNegative arg = false) :
      ExecEffect s (.construct ver arg) ((seedAll v (seedLow v arg) (s.setInstance ver)).issue r)
  | seeds {arg : Arg} {v : Version} (r : Response) (hc : s.configured = true) (hv : versionOf s.ver = some v) :
      ExecEffect s (.seed arg) ((seedAll v (seedLow v arg) s).issue r)
  | drawsRaw {v : Version} (r : Response) (hc : s.configured = true) (hv : versionOf s.ver = some v) :
      ExecEffect s .nextRaw ((nextRaw v.raw s).2.issue r)
  | draws {v : Version} (r : Response) (hc : s.configured = true) (hv : versionOf s.ver = some v) :
      ExecEffect s .get ((getOutput v s).2.issue r)
  | starts {arg : Arg} {v : Version} (hc : s.configured = true) (hv : versionOf s.ver = some v)
      (hle : arg.toNat ≤ v.nstates) : ExecEffect s (.shuffle arg) (s.startShuffle (arg.setWidth 33))

theorem exec_effect {i : Instr} {s t : State} (h : exec i s = .next t) : ExecEffect s i t := by
  cases i with
  | nop =>
    obtain rfl := execNop_next h
    exact .answers _ _
  | construct ver arg =>
    obtain ⟨-, rfl⟩ | ⟨v, hv, ⟨-, rfl⟩ | ⟨hpos, rfl⟩⟩ := execConstruct_next h
    · exact .answers _ _
    · exact .answers _ _
    · exact .constructs _ hv hpos
  | seed arg =>
    obtain ⟨-, rfl⟩ | ⟨hc, v, hv, ⟨-, rfl⟩ | ⟨-, rfl⟩⟩ := execSeed_next h
    · exact .answers _ _
    · exact .answers _ _
    · exact .seeds _ hc hv
  | nextRaw =>
    obtain ⟨-, rfl⟩ | ⟨hc, v, hv, rfl⟩ := execNextRaw_next h
    · exact .answers _ _
    · exact .drawsRaw _ hc hv
  | get =>
    obtain ⟨-, rfl⟩ | ⟨hc, v, hv, rfl⟩ := execGet_next h
    · exact .answers _ _
    · exact .draws _ hc hv
  | shuffle arg =>
    obtain ⟨-, rfl⟩ | ⟨hc, v, hv, ⟨-, rfl⟩ | ⟨hle, rfl⟩⟩ := execShuffle_next h
    · exact .answers _ _
    · exact .answers _ _
    · exact .starts hc hv hle
  | rdcfg sel =>
    obtain ⟨-, rfl⟩ | ⟨-, rfl⟩ | ⟨-, -, rfl⟩ | ⟨-, -, v, -, rfl⟩ := execRdcfg_next h <;> exact .answers _ _

/-! ### What a step can do to the registers of the generator -/

/-- The registers of the generator, with the parameters they are read under: CONFIGURED, VER, the state words, TAB and CUR
(R21, R24 to R27). -/
structure Registers where
  config : Config
  configured : Bool
  ver : BitVec 8
  words : Word × Word × Word × Word
  table : List Word × Word

def State.registers (s : State) : Registers := ⟨s.config, s.configured, s.ver, (s.s0, s.s1, s.s2, s.s3), (s.tab, s.cur)⟩

/-- A phase of the controller leaves the registers of the generator alone, unless it is a draw (R138, R142). -/
theorem controllerStep_registers {s t : State} (h : controllerStep s = .next t) :
    t.registers = s.registers ∨
      (s.phase = .draw ∧ ∃ v, versionOf s.ver = some v ∧ t.registers = (getOutput v s).2.registers) := by
  obtain ⟨-, -, rfl⟩ | ⟨-, -, rfl⟩ | ⟨-, -, rfl⟩ | ⟨-, -, rfl⟩ | ⟨hp, -, v, hv, rfl⟩ | ⟨-, -, rfl⟩ | ⟨-, -, rfl⟩ |
    ⟨-, rfl⟩ | ⟨-, rfl⟩ | ⟨-, rfl⟩ | ⟨-, rfl⟩ := controllerStep_next h
  case inr.inr.inr.inr.inl => exact .inr ⟨hp, v, hv, rfl⟩
  all_goals simp [State.registers]

/-- The three ways in which a step reaches the registers of the generator: a reset, a command, a draw of the controller. -/
theorem step_registers {s t : State} (h : step s = .next t) :
    t.registers = s.registers ∨
    (∃ rest, s.host = .reset :: rest ∧ t = applyReset (s.setHost rest)) ∨
    (∃ c rest i, s.busy = false ∧ s.host = .command c :: rest ∧ decode c = .ok i ∧
      ExecEffect (s.setHost rest) i t) ∨
    (s.busy = true ∧ s.phase = .draw ∧ ∃ v host, versionOf s.ver = some v ∧
      t.registers = (getOutput v (s.setHost host)).2.registers) := by
  obtain ⟨-, -, rfl⟩ | ⟨rest, -, -, rfl⟩ | ⟨rest, hh, rfl⟩ | ⟨i, x, rest, -, -, rfl⟩ | ⟨c, rest, hb, hh, h⟩ |
    ⟨rest, hb, -, h⟩ | ⟨hb, -, h⟩ := step_next h
  · exact .inl rfl
  · exact .inl rfl
  · exact .inr (.inl ⟨rest, hh, rfl⟩)
  · exact .inl rfl
  · obtain ⟨i, hi, h⟩ | ⟨e, -, rfl⟩ := acceptCommand_next h
    · exact .inr (.inr (.inl ⟨c, rest, i, hb, hh, hi, exec_effect h⟩))
    · exact .inl rfl
  · exact (controllerStep_registers h).imp_right fun ⟨hp, v, hv, ht⟩ => .inr (.inr ⟨hb, hp, v, rest, hv, ht⟩)
  · exact (controllerStep_registers h).imp_right fun ⟨hp, v, hv, ht⟩ => .inr (.inr ⟨hb, hp, v, s.host, hv, ht⟩)

/-! ### The parameters, CONFIGURED and VER (R24, R25, R31) -/

theorem ExecEffect.config_eq {i : Instr} {s t : State} (h : ExecEffect s i t) : t.config = s.config := by
  cases h <;> simp

/-- A command that completes leaves CONFIGURED and VER as they are, a successful CONSTRUCT apart (R24, R25). -/
theorem ExecEffect.configured_ver {i : Instr} {s t : State} (h : ExecEffect s i t) :
    (t.configured = s.configured ∧ t.ver = s.ver) ∨
      ∃ ver arg, i = .construct ver arg ∧ supported ver = true ∧ arg.toNat < 2 ^ 63 ∧
        t.configured = true ∧ t.ver = ver := by
  cases h with
  | @constructs ver arg v r hv hpos =>
    have hlt : arg.toNat < 2 ^ 63 := by
      rwa [← Nat.not_le, ← seedNegative_iff, Bool.not_eq_true]
    exact .inr ⟨ver, arg, rfl, by simp [supported, hv], hlt, by simp, by simp⟩
  | answers | seeds | drawsRaw | draws | starts => exact .inl (by simp)

/-- What a step can do to CONFIGURED and VER: nothing, a reset, or a successful CONSTRUCT (R24, R25). -/
theorem step_configured_ver {s t : State} (h : step s = .next t) :
    (t.configured = s.configured ∧ t.ver = s.ver) ∨
    (∃ rest, s.host = .reset :: rest ∧ t.configured = false) ∨
    ∃ c rest ver arg, s.host = .command c :: rest ∧ decode c = .ok (.construct ver arg) ∧ supported ver = true ∧
      arg.toNat < 2 ^ 63 ∧ t.configured = true ∧ t.ver = ver := by
  obtain h | ⟨rest, hh, rfl⟩ | ⟨c, rest, i, -, hh, hi, h⟩ | ⟨-, -, v, host, -, h⟩ := step_registers h
  · exact .inl ⟨congrArg Registers.configured h, congrArg Registers.ver h⟩
  · exact .inr (.inl ⟨rest, hh, rfl⟩)
  · obtain h | ⟨ver, arg, rfl, hver⟩ := h.configured_ver
    · exact .inl h
    · exact .inr (.inr ⟨c, rest, ver, arg, hh, hi, hver⟩)
  · exact .inl ⟨(congrArg Registers.configured h).trans (by simp [State.registers]),
      (congrArg Registers.ver h).trans (by simp [State.registers])⟩

/-- Settles O52: no operation of the model writes the parameters. -/
theorem parametersNeverChange : Obligations.ParametersNeverChange := by
  intro s t h
  obtain h | ⟨rest, -, rfl⟩ | ⟨c, rest, i, -, -, -, h⟩ | ⟨-, -, v, host, -, h⟩ := step_registers h
  · exact congrArg Registers.config h
  · rfl
  · exact h.config_eq
  · exact (congrArg Registers.config h).trans (by simp [State.registers])

/-- Settles O47: a step that changes CONFIGURED is a reset, which clears it, or a successful CONSTRUCT, which sets it. -/
theorem onlyResetClearsConfigured : Obligations.OnlyResetClearsConfigured := by
  refine ⟨rfl, fun s ver arg hver harg => ?_, fun s t h hs ht => ?_, fun s t h hs ht => ?_⟩
  · obtain ⟨v, hv⟩ := Option.isSome_iff_exists.mp hver
    exact ⟨_, execConstruct_ok hv harg s, by simp⟩
  · obtain ⟨h, -⟩ | ⟨rest, hh, -⟩ | ⟨_, _, _, _, -, -, -, -, h, -⟩ := step_configured_ver h
    · simp_all
    · exact ⟨rest, hh⟩
    · simp_all
  · obtain ⟨h, -⟩ | ⟨_, -, h⟩ | ⟨c, rest, ver, arg, hh, hi, hver, harg, -⟩ := step_configured_ver h
    · simp_all
    · simp_all
    · exact ⟨c, rest, ver, arg, hh, hi, hver, harg⟩

/-- Settles O48: of what a step can do to CONFIGURED and VER, a reset and a successful CONSTRUCT alone reach VER. -/
theorem onlyConstructWritesVer : Obligations.OnlyConstructWritesVer := by
  intro s t h hver
  obtain ⟨-, h⟩ | h | ⟨c, rest, ver, arg, hh, hi, hs, harg, -, ht⟩ := step_configured_ver h
  · exact absurd h hver
  · exact .inl h
  · exact .inr ⟨c, rest, ver, arg, hh, hi, hs, harg, ht⟩

/-! ### The state words, TAB and CUR (R21, R26, R27, R116) -/

/-- `seed_all` of a version without the wrapper leaves TAB and CUR alone (R26, R27). -/
theorem seedAll_wrapped_of_table_ne {v : Version} {x : Word} {s : State}
    (h : ((seedAll v x s).tab, (seedAll v x s).cur) ≠ (s.tab, s.cur)) : v.wrapped = true := by
  by_contra hw
  simp [seedAll, hw] at h

/-- `get()` on a version without the wrapper leaves TAB and CUR alone (R115). -/
theorem getOutput_wrapped_of_table_ne {v : Version} {s : State}
    (h : ((getOutput v s).2.tab, (getOutput v s).2.cur) ≠ (s.tab, s.cur)) : v.wrapped = true := by
  by_contra hw
  simp [getOutput, hw] at h

/-- The commands that write the state words (R21). -/
theorem ExecEffect.words_writer {i : Instr} {s t : State} (h : ExecEffect s i t)
    (hne : (t.s0, t.s1, t.s2, t.s3) ≠ (s.s0, s.s1, s.s2, s.s3)) :
    (∃ ver arg, i = .construct ver arg) ∨ (∃ arg, i = .seed arg) ∨ i = .nextRaw ∨ i = .get := by
  cases h with
  | answers | starts => exact absurd rfl hne
  | constructs | seeds | drawsRaw | draws => simp

/-- The commands that write TAB and CUR, on a wrapped version; NEXT_RAW is none of them (R26, R27, R116). -/
theorem ExecEffect.table_writer {i : Instr} {s t : State} (h : ExecEffect s i t) (hne : (t.tab, t.cur) ≠ (s.tab, s.cur)) :
    bdField t.ver = true ∧ ((∃ ver arg, i = .construct ver arg) ∨ (∃ arg, i = .seed arg) ∨ i = .get) := by
  cases h with
  | answers | starts => exact absurd rfl hne
  | drawsRaw => simp at hne
  | constructs _ hv => exact ⟨by simpa [versionOf_wrapped hv] using seedAll_wrapped_of_table_ne hne, by simp⟩
  | seeds _ _ hv => exact ⟨by simpa [versionOf_wrapped hv] using seedAll_wrapped_of_table_ne hne, by simp⟩
  | draws _ _ hv => exact ⟨by simpa [versionOf_wrapped hv] using getOutput_wrapped_of_table_ne hne, by simp⟩

/-- Settles O49: of the three ways to the registers, reset is shut out, a draw is named, and a command is one of the writers. -/
theorem generatorHasFewWriters : Obligations.GeneratorHasFewWriters := by
  intro s t h hreset
  obtain h | ⟨rest, hh, -⟩ | ⟨c, rest, i, hb, hh, hi, h⟩ | ⟨hb, hp, v, host, hv, h⟩ := step_registers h
  · exact ⟨fun hne => absurd (congrArg Registers.words h) hne, fun hne => absurd (congrArg Registers.table h) hne⟩
  · exact absurd hh (hreset rest)
  · refine ⟨fun hne => .inr ⟨hb, c, rest, i, hh, hi, h.words_writer hne⟩, fun hne => ?_⟩
    obtain ⟨hbd, hw⟩ := h.table_writer hne
    exact ⟨hbd, .inr ⟨hb, c, rest, i, hh, hi, hw⟩⟩
  · refine ⟨fun _ => .inl ⟨hb, hp⟩, fun hne => ⟨?_, .inl ⟨hb, hp⟩⟩⟩
    have hver : t.ver = s.ver := (congrArg Registers.ver h).trans (by simp [State.registers])
    rw [hver, ← versionOf_wrapped hv]
    exact getOutput_wrapped_of_table_ne (s := s.setHost host) fun he => hne ((congrArg Registers.table h).trans he)

/-! ### The state right after reset (R33, R201) -/

theorem decodeTableWord_eq_some {n w : Nat} {i : Instr} :
    decodeTableWord n w = some i ↔ decode (commandOfBits n w) = .ok i := by
  unfold decodeTableWord
  cases decode (commandOfBits n w) <;> simp

/-- A command presented to a free block is the next step (R74, R205). -/
theorem step_presentCommand {c : Command} {i : Instr} (hi : decode c = .ok i) (s : State) :
    step (presentCommand c s) = exec i { s with busy := false } := by
  show acceptCommand c { s with busy := false } = _
  simp [acceptCommand, hi]

theorem execNextRaw_unconfigured {s : State} (hc : s.configured = false) : execNextRaw s = raise .notConstructed s :=
  withVersion_unconfigured hc _

theorem execGet_unconfigured {s : State} (hc : s.configured = false) : execGet s = raise .notConstructed s :=
  withVersion_unconfigured hc _

/-- Settles O54: the fields by their reset values; NEXT_RAW and GET stop at the guard of R185. -/
theorem resetStateIsUnconfigured : Obligations.ResetStateIsUnconfigured := by
  refine ⟨rfl, rfl, rfl, rfl, rfl, fun w hw => ⟨State.reset.issue ⟨.notConstructed, 0⟩, ?_, rfl⟩⟩
  obtain h | h := hw <;> rw [State.withFetchWord, step_presentCommand (decodeTableWord_eq_some.mp h)]
  · exact execNextRaw_unconfigured rfl
  · exact execGet_unconfigured rfl

/-! ### The raw generators keep their ranges (R22, R23, R96) -/

theorem lcgStep_lt (ac : Nat × Nat) (bits : Nat) (x : Word) : (lcgStep ac bits x).toNat < 2 ^ bits := by
  simp only [lcgStep, BitVec.toNat_ofNat]
  exact (Nat.mod_le _ _).trans_lt (Nat.mod_lt _ (Nat.two_pow_pos _))

/-- Zero lies on no cycle through the other words, so none of them steps to it (R100). -/
theorem xs32Step_ne_zero {sh : Xs32Shift} (h : sh.OneCycle) {x : Word} (hx : x ≠ 0) : xs32Step sh x ≠ 0 := by
  obtain ⟨hzero, hcycle⟩ := h
  obtain ⟨y, hy, hxy⟩ : ∃ y : Word, y ≠ 0 ∧ x ≠ y := by
    by_cases h1 : x = 1
    · exact ⟨2, by decide, by simp [h1]⟩
    · exact ⟨1, by decide, h1⟩
  intro hstep
  obtain ⟨k, hk⟩ := hcycle x y hx hy
  cases k with
  | zero => exact hxy hk
  | succ k =>
    rw [Function.iterate_succ_apply, hstep, Function.iterate_fixed hzero] at hk
    exact hy hk.symm

/-- A new word 0 beside a newest word 0 comes from an oldest word 0 alone (R94, R95). -/
theorem eq_zero_of_xs128Word_eq_zero {x : Word} (h : xs128Word x 0 = 0) : x = 0 := by
  have hright (t : Word) (ht : t ^^^ t >>> 8 = 0) : t = 0 := by
    have := BitVec.xor_eq_zero_iff.mp ht
    bv_omega
  have hleft (ht : x ^^^ x <<< 11 = 0) : x = 0 := by
    have := BitVec.xor_eq_zero_iff.mp ht
    bv_omega
  exact hleft (hright _ (by simpa [xs128Word, xs128ShiftA, xs128ShiftB, xs128ShiftC] using h))

/-- A raw step keeps the ranges of the state words (R22, R23, R96). -/
theorem nextRaw_rawOk {a : RawAlg} {s : State} (hc : s.config.Ok) (h : RawOk a s) : RawOk a (nextRaw a s).2 := by
  obtain ⟨-, hne, hne128⟩ := h
  cases a with
  | lcg16 | lcg26 | lcg32 => exact ⟨lcgStep_lt _ _ _, nofun, nofun⟩
  | xs32 => exact ⟨BitVec.isLt _, fun _ => xs32Step_ne_zero hc.oneCycle (hne rfl), nofun⟩
  | xs128 =>
    refine ⟨BitVec.isLt _, nofun, ?_⟩
    rintro - ⟨h1, h2, h3, hnew⟩
    have h3 : s.s3 = 0 := h3
    have h0 : xs128Word s.s0 s.s3 = 0 := hnew
    exact hne128 rfl ⟨eq_zero_of_xs128Word_eq_zero (h3 ▸ h0), h1, h2, h3⟩

/-- A raw output is the newest state word, and so within its range (R96). -/
theorem nextRaw_outputOk {a : RawAlg} {s : State} (hc : s.config.Ok) (h : RawOk a s) : OutputOk a (nextRaw a s).1 := by
  obtain ⟨hlt, hne, -⟩ := nextRaw_rawOk hc h
  rw [nextRaw_output]
  split
  next ha => exact ⟨by simpa [ha, RawAlg.bits] using BitVec.isLt _, by simp [ha]⟩
  next => exact ⟨hlt, hne⟩

theorem rawOutputs_ok {a : RawAlg} {s : State} (k : Nat) (hc : s.config.Ok) (h : RawOk a s) :
    (∀ o ∈ (rawOutputs a k s).1, OutputOk a o) ∧ RawOk a (rawOutputs a k s).2 := by
  induction k generalizing s with
  | zero => exact ⟨by simp [rawOutputs], h⟩
  | succ k ih =>
    obtain ⟨hout, hraw⟩ := ih (s := (nextRaw a s).2) (by simpa using hc) (nextRaw_rawOk hc h)
    exact ⟨List.forall_mem_cons.mpr ⟨nextRaw_outputOk hc h, hout⟩, hraw⟩

/-! ### Seeding and drawing keep the generator's part of the invariant (R26, R27, R83, R112, R114) -/

/-- Two steps of the seeding recurrence are not both 0 (R85). -/
theorem seedXs128_rawOk {s : State} (hc : s.config.Ok) (x : Word) : RawOk .xs128 (seedXs128 x s) := by
  unfold seedXs128
  refine (rawOutputs_ok (a := .xs128) _ (by simpa using hc) ⟨BitVec.isLt _, nofun, ?_⟩).2
  rintro - ⟨h0, h1, -, -⟩
  simp only [State.setWords_s0, State.setWords_s1] at h0 h1
  rw [h0] at h1
  exact absurd h1 (by decide)

theorem seedRaw_rawOk {a : RawAlg} {s : State} {x : Word} (hc : s.config.Ok) (hx : x.toNat < 2 ^ a.bits) :
    RawOk a (seedRaw a x s) := by
  cases a with
  | lcg16 | lcg26 | lcg32 => exact ⟨hx, nofun, nofun⟩
  | xs32 =>
    refine ⟨BitVec.isLt _, fun _ => ?_, nofun⟩
    show (if x = 0 then xs32Fallback else x) ≠ 0
    split
    · decide
    · assumption
  | xs128 => exact seedXs128_rawOk hc x

/-- The generator's part of the invariant, for a version: the parameters, the table's length, the ranges of the state words
(R22, R23) and the outputs held on a wrapped version (R26, R27). -/
def GeneratorOk (v : Version) (s : State) : Prop :=
  s.config.Ok ∧ s.tab.length = 2 ^ s.config.bdBits ∧ RawOk v.raw s ∧ WrapOk v s

theorem bdFill_generatorOk {v : Version} {s : State} (hc : s.config.Ok) (h : RawOk v.raw s) :
    GeneratorOk v (bdFill v.raw s) := by
  obtain ⟨hout, hraw⟩ := rawOutputs_ok (2 ^ s.config.bdBits) hc h
  have hc' : ((rawOutputs v.raw (2 ^ s.config.bdBits) s).2.setTab
      (rawOutputs v.raw (2 ^ s.config.bdBits) s).1).config.Ok := by simpa using hc
  exact ⟨by simpa using hc, by simp, nextRaw_rawOk hc' hraw, fun _ => ⟨by simpa using hout, nextRaw_outputOk hc' hraw⟩⟩

/-- `seed_all` sets up the generator from any state (R83). -/
theorem seedAll_generatorOk {v : Version} {s : State} {x : Word} (hc : s.config.Ok)
    (htab : s.tab.length = 2 ^ s.config.bdBits) (hx : x.toNat < 2 ^ v.bits) : GeneratorOk v (seedAll v x s) := by
  have hraw := seedRaw_rawOk (s := s) hc hx
  unfold seedAll
  split
  next => exact bdFill_generatorOk (by simpa using hc) hraw
  next hw => exact ⟨by simpa using hc, by simpa using htab, hraw, fun h => absurd h hw⟩

theorem nextRaw_generatorOk {v : Version} {s : State} (h : GeneratorOk v s) : GeneratorOk v (nextRaw v.raw s).2 := by
  obtain ⟨hc, htab, hraw, hwrap⟩ := h
  exact ⟨by simpa using hc, by simpa using htab, nextRaw_rawOk hc hraw, by simpa [WrapOk] using hwrap⟩

/-- A wrapped `get()` returns an output that was held, holds another, and replaces it in the table by a fresh one (R114). -/
theorem getWrapped_generatorOk {v : Version} {s : State} (hw : v.wrapped = true) (h : GeneratorOk v s) :
    GeneratorOk v (getWrapped v.raw s).2 ∧ OutputOk v.raw (getWrapped v.raw s).1 := by
  obtain ⟨hc, htab, hraw, hwrap⟩ := h
  obtain ⟨hheld, hcur⟩ := hwrap hw
  have hi : tabIndex s.config s.cur < s.tab.length := htab ▸ tabIndex_lt _ _
  have hfresh : OutputOk v.raw (nextRaw v.raw (s.setCur (s.tab.getD (tabIndex s.config s.cur) 0))).1 :=
    nextRaw_outputOk hc hraw
  refine ⟨⟨by simpa using hc, by simpa [getWrapped] using htab, nextRaw_rawOk hc hraw,
    fun _ => ⟨fun o ho => ?_, ?_⟩⟩, hcur⟩
  · obtain ho | rfl := List.mem_or_eq_of_mem_set ho
    · exact hheld o (by simpa using ho)
    · exact hfresh
  · simpa [getWrapped, hi] using hheld _ (List.getElem_mem hi)

/-- A public output keeps the generator's part of the invariant and lies in the range of a raw output (R96, R114, R115). -/
theorem getOutput_generatorOk {v : Version} {s : State} (h : GeneratorOk v s) :
    GeneratorOk v (getOutput v s).2 ∧ OutputOk v.raw (getOutput v s).1 := by
  unfold getOutput
  split
  next hw => exact getWrapped_generatorOk hw h
  next =>
    have ⟨hc, _, hraw, _⟩ := h
    exact ⟨nextRaw_generatorOk h, nextRaw_outputOk hc hraw⟩

/-! ### The invariant of the controller, phase by phase (R133 to R136, R142) -/

/-- What the controller's registers are in every phase: N within the version's bound, B the width that covers J, HI where it
next grows (R34, R133). -/
def WidthOk (v : Version) (s : State) : Prop :=
  s.n.toNat ≤ v.nstates ∧ (1 ≤ s.b.toNat ∧ s.b.toNat ≤ v.bits) ∧ s.hi.toNat = 2 ^ s.b.toNat ∧
    2 ^ (s.b.toNat - 1) ≤ s.j.toNat ∧ s.j.toNat ≤ 2 ^ s.b.toNat

/-- J is a position of the sequence, of B significant bits (R133). -/
def Inside (s : State) : Prop := s.j.toNat < s.n.toNat ∧ s.j.toNat < 2 ^ s.b.toNat

/-- What holds in a phase besides: what the phases before it have made true (R133 to R136). -/
def PhaseOk (s : State) : Phase → Prop
  | .loop => s.j.toNat ≤ max s.n.toNat 1
  | .width => s.j.toNat < s.n.toNat
  | .draw => Inside s
  | .test => Inside s ∧ s.r.toNat < 2 ^ s.b.toNat
  | .rdR => Inside s ∧ s.r.toNat ≤ s.j.toNat
  | .rdJ => Inside s ∧ s.r.toNat ≤ s.j.toNat ∧ s.t0 = s.memRead s.r.toNat
  | .wrJ => Inside s ∧ s.r.toNat ≤ s.j.toNat ∧ s.t0 = s.memRead s.r.toNat ∧ s.t1 = s.memRead s.j.toNat
  | .wrR => Inside s ∧ s.r.toNat ≤ s.j.toNat ∧ s.memRead s.j.toNat = s.t0

/-- The controller's part of the invariant, its clauses sorted by the phase they speak of. -/
theorem controllerOk_iff {v : Version} {s : State} : ControllerOk v s ↔ WidthOk v s ∧ PhaseOk s s.phase := by
  constructor
  · rintro ⟨length, width, hi, low, high, between, inside, covered, drawn, accepted, readR, readJ, writtenJ⟩
    refine ⟨⟨length, width, hi, low, high⟩, ?_⟩
    cases hp : s.phase <;> simp_all [PhaseOk, Inside]
  · rintro ⟨⟨length, width, hi, low, high⟩, hphase⟩
    cases hp : s.phase
    all_goals
      rw [hp] at hphase
      simp only [PhaseOk, Inside] at hphase
      constructor <;> simp [hp, length, width, hi, low, high, hphase]

/-- WIDTH at a power of two inside the sequence: one more bit covers J, and the version has it (R133). -/
theorem WidthOk.grow {v : Version} {s : State} (h : WidthOk v s) (hj : s.j = s.hi) (hn : s.j.toNat < s.n.toNat) :
    WidthOk v (s.setBHi (s.b + 1) (s.hi <<< 1)) ∧ s.j.toNat < 2 ^ (s.b + 1).toNat := by
  obtain ⟨hlen, ⟨hone, hbits⟩, hhi, -, -⟩ := h
  have hjb : s.j.toNat = 2 ^ s.b.toNat := hj ▸ hhi
  have hlt : s.b.toNat < v.bits := (Nat.pow_lt_pow_iff_right (by decide)).mp (hjb ▸ hn.trans_le hlen)
  have hmax : v.bits ≤ 32 := v.bits_le
  have hb : (s.b + 1).toNat = s.b.toNat + 1 := by bv_omega
  have hpow : 2 ^ (s.b + 1).toNat = 2 * 2 ^ s.b.toNat := by rw [hb, Nat.pow_succ']
  have hpos : 2 ^ s.b.toNat ≤ 2 ^ 31 := Nat.pow_le_pow_right (by decide) (by omega)
  have hdouble : (s.hi <<< 1).toNat = 2 ^ (s.b + 1).toNat := by
    rw [BitVec.toNat_shiftLeft, Nat.shiftLeft_eq, hhi, hpow]
    omega
  have hcov : s.j.toNat < 2 ^ (s.b + 1).toNat := by
    have := Nat.two_pow_pos s.b.toNat
    omega
  refine ⟨⟨hlen, ⟨?_, ?_⟩, hdouble, ?_, hcov.le⟩, hcov⟩
  · show 1 ≤ (s.b + 1).toNat
    omega
  · show (s.b + 1).toNat ≤ v.bits
    omega
  · show 2 ^ ((s.b + 1).toNat - 1) ≤ s.j.toNat
    rw [hb, Nat.add_sub_cancel, hjb]

/-- A position of the sequence is an index of SEQ (R40, R131). -/
theorem WidthOk.index_lt {v : Version} {s : State} (h : WidthOk v s) (hn : s.j.toNat < s.n.toNat) : s.j.toNat < 2 ^ 32 :=
  hn.trans_le (h.1.trans v.nstates_le)

/-- The next position: it is at most N, and still covered by B bits or the power of two just above them (R133). -/
theorem WidthOk.advance {v : Version} {s : State} (h : WidthOk v s) (hin : Inside s) :
    WidthOk v (s.setJ (s.j + 1)) ∧ (s.j + 1).toNat ≤ s.n.toNat := by
  obtain ⟨hlt, hcov⟩ := hin
  have hidx := h.index_lt hlt
  obtain ⟨hlen, hwidth, hhi, hlow, -⟩ := h
  have hj : (s.j + 1).toNat = s.j.toNat + 1 := by bv_omega
  refine ⟨⟨hlen, hwidth, hhi, ?_, ?_⟩, by omega⟩
  · exact hlow.trans (hj ▸ Nat.le_succ _)
  · exact hj ▸ hcov

/-- SHUFFLE of an admissible length starts the controller in its invariant (R130, R131). -/
theorem startShuffle_controllerOk {v : Version} (s : State) {arg : Arg} (h : arg.toNat ≤ v.nstates) :
    ControllerOk v (s.startShuffle (arg.setWidth 33)) := by
  have hmax := v.nstates_le
  have hn : (arg.setWidth 33).toNat = arg.toNat := by
    rw [BitVec.toNat_setWidth, Nat.mod_eq_of_lt (by omega)]
  exact controllerOk_iff.mpr
    ⟨⟨hn.trans_le h, ⟨Nat.le_refl 1, v.one_le_bits⟩, rfl, Nat.le_refl 1, Nat.le_succ 1⟩, Nat.le_max_right _ 1⟩

/-! ### The invariant in three parts: the generator, the elements, the controller -/

/-- The elements' part of the invariant: SEQ in canonical form, and every element ELEM_W bits wide (R40, R41). -/
def ElementsOk (s : State) : Prop :=
  s.seq.wf ∧ s.seq.fits s.config.elemW ∧ s.t0 < 2 ^ s.config.elemW ∧ s.t1 < 2 ^ s.config.elemW

theorem ElementsOk.memWrite {s : State} (h : ElementsOk s) {i : Nat} {x : Elem} (hi : i < 2 ^ 32)
    (hx : x < 2 ^ s.config.elemW) : ElementsOk (s.memWrite i x) := by
  obtain ⟨hwf, hfits, ht⟩ := h
  exact ⟨Memory.write_wf hwf _ _, Memory.write_fits hfits hi hx, ht⟩

/-- The invariant of a block that is CONFIGURED, from its parts. -/
theorem inv_of_parts {v : Version} {s : State} (hv : versionOf s.ver = some v) (hgen : GeneratorOk v s)
    (hel : ElementsOk s) (hctrl : s.busy = true → s.configured = true ∧ ControllerOk v s) : s.Inv := by
  obtain ⟨hc, htab, hraw, hwrap⟩ := hgen
  obtain ⟨hwf, hfits, ht⟩ := hel
  exact ⟨hc, htab, hwf, hfits, ht, fun _ => ⟨v, hv, hraw, hwrap⟩, fun hb => (hctrl hb).imp_right fun h => ⟨v, hv, h⟩⟩

theorem State.Inv.generatorOk {v : Version} {s : State} (h : s.Inv) (hc : s.configured = true)
    (hv : versionOf s.ver = some v) : GeneratorOk v s := by
  obtain ⟨w, hw, hraw, hwrap⟩ := h.generator hc
  obtain rfl : w = v := Option.some_injective _ (hw.symm.trans hv)
  exact ⟨h.config, h.tabLength, hraw, hwrap⟩

theorem State.Inv.elementsOk {s : State} (h : s.Inv) : ElementsOk s := ⟨h.seqWf, h.seqFits, h.swapFits⟩

/-- An answer ends the command, so it asks nothing of the controller (R29). -/
theorem State.Inv.issue {s : State} (h : s.Inv) (r : Response) : (s.issue r).Inv :=
  ⟨h.config, h.tabLength, h.seqWf, h.seqFits, h.swapFits, h.generator, nofun⟩

/-- The host's moves play no part in the invariant. -/
theorem State.Inv.setHost {s : State} (h : s.Inv) (host : List HostMove) : (s.setHost host).Inv :=
  ⟨h.config, h.tabLength, h.seqWf, h.seqFits, h.swapFits, h.generator, fun hb => (h.controller hb).imp_right
    fun ⟨v, hv, hok⟩ => ⟨v, hv, controllerOk_iff.mpr (controllerOk_iff (s := s).mp hok)⟩⟩

/-- A host store between commands keeps the invariant (R48, R203). -/
theorem State.Inv.hostStore {s : State} (h : s.Inv) (hb : s.busy = false) (i : BitVec 32) (x : Elem) :
    (hostStore i x s).Inv := by
  obtain ⟨hwf, hfits, ht⟩ := h.elementsOk.memWrite i.isLt (Nat.mod_lt x (Nat.two_pow_pos s.config.elemW))
  exact ⟨h.config, h.tabLength, hwf, hfits, ht, h.generator, fun hb' => absurd (hb.symm.trans hb') nofun⟩

/-- Reset sets up the invariant from admissible parameters and a memory that fits (R33, R201). -/
theorem applyReset_inv {s : State} (hc : s.config.Ok) (hwf : s.seq.wf) (hfits : s.seq.fits s.config.elemW) :
    (applyReset s).Inv :=
  ⟨hc, List.length_replicate, hwf, hfits, ⟨Nat.two_pow_pos _, Nat.two_pow_pos _⟩, nofun, nofun⟩

/-- Settles O56: the state after reset is a reset of itself, with the build's admissible parameters and an empty memory. -/
theorem resetStateMeetsInvariant : Obligations.ResetStateMeetsInvariant :=
  applyReset_inv (s := State.reset) build_ok Memory.reset_wf nofun

/-! ### Every step keeps the invariant -/

/-- A command seeds the generator, draws from it, or starts the controller; the parts it leaves alone stay as they are. -/
theorem ExecEffect.inv {i : Instr} {s t : State} (h : ExecEffect s i t) (hs : s.Inv) : t.Inv := by
  cases h with
  | answers _ r => exact hs.issue r
  | @constructs ver arg v r hv hpos =>
    have hgen : GeneratorOk v (seedAll v (seedLow v arg) (s.setInstance ver)) :=
      seedAll_generatorOk hs.config hs.tabLength (seedLow_lt v arg)
    exact inv_of_parts (v := v) (by simpa using hv) hgen (by simpa [ElementsOk] using hs.elementsOk) nofun
  | @seeds arg v r hc hv =>
    have hgen : GeneratorOk v (seedAll v (seedLow v arg) s) :=
      seedAll_generatorOk hs.config hs.tabLength (seedLow_lt v arg)
    exact inv_of_parts (v := v) (by simpa using hv) hgen (by simpa [ElementsOk] using hs.elementsOk) nofun
  | @drawsRaw v r hc hv =>
    exact inv_of_parts (v := v) (by simpa using hv) (nextRaw_generatorOk (hs.generatorOk hc hv))
      (by simpa [ElementsOk] using hs.elementsOk) nofun
  | @draws v r hc hv =>
    exact inv_of_parts (v := v) (by simpa using hv) (getOutput_generatorOk (hs.generatorOk hc hv)).1
      (by simpa [ElementsOk] using hs.elementsOk) nofun
  | starts hc hv hle =>
    exact inv_of_parts hv (hs.generatorOk hc hv) hs.elementsOk fun _ => ⟨hc, startShuffle_controllerOk s hle⟩

/-- DRAW: the top B bits of an output of BITS bits are below `2^B` (R134). -/
theorem draw_inv {v : Version} {s : State} (hs : s.Inv) (hc : s.configured = true) (hv : versionOf s.ver = some v)
    (hw : WidthOk v s) (hin : Inside s) :
    (((getOutput v s).2.setR (drawOf v.bits s.b.toNat (getOutput v s).1)).setPhase .test).Inv := by
  obtain ⟨hgen, hout, -⟩ := getOutput_generatorOk (hs.generatorOk hc hv)
  have ⟨_, ⟨_, hbits⟩, _⟩ := hw
  have hr : (drawOf v.bits s.b.toNat (getOutput v s).1).toNat < 2 ^ s.b.toNat := drawOf_lt hout hbits
  refine inv_of_parts (v := v) (by simpa using hv) hgen (by simpa [ElementsOk] using hs.elementsOk)
    fun _ => ⟨by simpa using hc, controllerOk_iff.mpr ⟨by simpa [WidthOk] using hw, ?_⟩⟩
  simpa [PhaseOk, Inside] using And.intro hin hr

/-- Each phase of the controller keeps the invariant and leaves the next phase what it relies on (R133 to R136, R142). -/
theorem controllerStep_inv {s t : State} (hs : s.Inv) (hb : s.busy = true) (h : controllerStep s = .next t) : t.Inv := by
  obtain ⟨hc, v, hv, hok⟩ := hs.controller hb
  obtain ⟨hw, hp⟩ := controllerOk_iff.mp hok
  have hgen := hs.generatorOk hc hv
  have hel := hs.elementsOk
  have ⟨hwf, hfits, ht0, ht1⟩ := hel
  obtain ⟨-, -, rfl⟩ | ⟨hph, hlt, rfl⟩ | ⟨hph, hj, rfl⟩ | ⟨hph, hj, rfl⟩ | ⟨hph, -, w, hw', rfl⟩ | ⟨hph, hr, rfl⟩ |
    ⟨hph, hr, rfl⟩ | ⟨hph, rfl⟩ | ⟨hph, rfl⟩ | ⟨hph, rfl⟩ | ⟨hph, rfl⟩ := controllerStep_next h
  · exact hs.issue _
  all_goals rw [hph] at hp
  · exact inv_of_parts hv hgen hel fun _ => ⟨hc, controllerOk_iff.mpr ⟨hw, hlt⟩⟩
  · obtain ⟨hw', hcov⟩ := hw.grow hj hp
    exact inv_of_parts hv hgen hel fun _ => ⟨hc, controllerOk_iff.mpr ⟨hw', hp, hcov⟩⟩
  · have ⟨_, _, hhi, _, hhigh⟩ := hw
    have hcov : s.j.toNat < 2 ^ s.b.toNat :=
      lt_of_le_of_ne hhigh fun he => hj (BitVec.eq_of_toNat_eq (he.trans hhi.symm))
    exact inv_of_parts hv hgen hel fun _ => ⟨hc, controllerOk_iff.mpr ⟨hw, hp, hcov⟩⟩
  · obtain rfl : v = w := Option.some_injective _ (hv.symm.trans hw')
    exact draw_inv hs hc hv hw hp
  · exact inv_of_parts hv hgen hel fun _ => ⟨hc, controllerOk_iff.mpr ⟨hw, hp.1, hr⟩⟩
  · exact inv_of_parts hv hgen hel fun _ => ⟨hc, controllerOk_iff.mpr ⟨hw, hp.1⟩⟩
  · exact inv_of_parts hv hgen ⟨hwf, hfits, Memory.read_lt hfits _, ht1⟩
      fun _ => ⟨hc, controllerOk_iff.mpr ⟨hw, hp.1, hp.2, rfl⟩⟩
  · obtain ⟨hin, hr, hreadR⟩ := hp
    exact inv_of_parts hv hgen ⟨hwf, hfits, ht0, Memory.read_lt hfits _⟩
      fun _ => ⟨hc, controllerOk_iff.mpr ⟨hw, hin, hr, hreadR, rfl⟩⟩
  · obtain ⟨hin, hr, -⟩ := hp
    have hwritten : (s.seq.write s.j.toNat s.t0).read s.j.toNat = s.t0 := by rw [Memory.read_write hwf, if_pos rfl]
    exact inv_of_parts hv hgen (hel.memWrite (hw.index_lt hin.1) ht0)
      fun _ => ⟨hc, controllerOk_iff.mpr ⟨hw, hin, hr, hwritten⟩⟩
  · obtain ⟨hw', hle⟩ := hw.advance hp.1
    exact inv_of_parts hv hgen (hel.memWrite s.r.isLt ht1)
      fun _ => ⟨hc, controllerOk_iff.mpr ⟨hw', le_max_of_le_left hle⟩⟩

/-- Settles O57: a step is a host move, a command that takes effect, or a phase of the controller; each keeps the three parts
of the invariant. -/
theorem stepKeepsInvariant : Obligations.StepKeepsInvariant := by
  intro s t hs h
  obtain ⟨-, -, rfl⟩ | ⟨rest, -, -, rfl⟩ | ⟨rest, -, rfl⟩ | ⟨i, x, rest, hb, -, rfl⟩ | ⟨c, rest, -, -, h⟩ |
    ⟨rest, hb, -, h⟩ | ⟨hb, -, h⟩ := step_next h
  · exact hs
  · exact hs.setHost rest
  · exact applyReset_inv hs.config hs.seqWf hs.seqFits
  · exact (hs.setHost rest).hostStore hb i x
  · obtain ⟨i, -, h⟩ | ⟨e, -, rfl⟩ := acceptCommand_next h
    · exact (exec_effect h).inv (hs.setHost rest)
    · exact (hs.setHost rest).issue _
  · exact controllerStep_inv (hs.setHost rest) hb h
  · exact controllerStep_inv hs hb h

end Sys2Proof.Machine
end

section
/-! PROOFS of 20_memory.md. What a host store writes (R42, R48), the only ways to SEQ (R43, R136), and that the elements of
SEQ influence nothing but themselves (R41, R140). -/

namespace Sys2Proof.Machine

/-! ### A host store between commands (R48, R203) -/

/-- A store to a free block is the next step (R203). -/
theorem step_store {s : State} {i : BitVec 32} {x : Elem} {rest : List HostMove} (hb : s.busy = false)
    (hh : s.host = .store i x :: rest) : step s = .next (hostStore i x (s.setHost rest)) := by
  simp [step, hostStep, whenFree, hb, hh]

/-- The element at an index after a write to SEQ (R42). -/
theorem State.memRead_memWrite {s : State} (h : s.seq.wf) (i : Nat) (x : Elem) (k : Nat) :
    (s.memWrite i x).memRead k = if k = i then x else s.memRead k :=
  Memory.read_write h i x k

/-- Settles O53: the store writes the element at its index, and an element that fits ELEM_W bits is written whole. -/
theorem hostStoreWritesOneElement : Obligations.HostStoreWritesOneElement := by
  intro s i x rest hwf hb hh hx
  refine ⟨_, step_store hb hh, rfl, fun k => ?_⟩
  have hwhole : x % 2 ^ (s.setHost rest).config.elemW = x := Nat.mod_eq_of_lt hx
  rw [hostStore, hwhole]
  exact State.memRead_memWrite (s := s.setHost rest) hwf i.toNat x k

/-! ### The ways to SEQ (R43, R136) -/

/-- No command's own step reaches SEQ (R43). -/
theorem ExecEffect.seq_eq {i : Instr} {s t : State} (h : ExecEffect s i t) : t.seq = s.seq := by
  cases h <;> simp

/-- A phase of the controller leaves SEQ alone, unless it is one of the two writes of the swap (R136). -/
theorem controllerStep_seq {s t : State} (h : controllerStep s = .next t) :
    t.seq = s.seq ∨ (s.phase = .wrJ ∧ t.seq = s.seq.write s.j.toNat s.t0) ∨
      (s.phase = .wrR ∧ t.seq = s.seq.write s.r.toNat s.t1) := by
  obtain ⟨-, -, rfl⟩ | ⟨-, -, rfl⟩ | ⟨-, -, rfl⟩ | ⟨-, -, rfl⟩ | ⟨-, -, v, -, rfl⟩ | ⟨-, -, rfl⟩ | ⟨-, -, rfl⟩ |
    ⟨-, rfl⟩ | ⟨-, rfl⟩ | ⟨hp, rfl⟩ | ⟨hp, rfl⟩ := controllerStep_next h
  case inr.inr.inr.inr.inr.inr.inr.inr.inr.inl => exact .inr (.inl ⟨hp, rfl⟩)
  case inr.inr.inr.inr.inr.inr.inr.inr.inr.inr => exact .inr (.inr ⟨hp, rfl⟩)
  all_goals exact .inl (by simp)

/-- The three ways in which a step reaches SEQ: the two writes of a swap, and a host store between commands. -/
theorem step_seq {s t : State} (h : step s = .next t) :
    t.seq = s.seq ∨
    (s.busy = true ∧ s.phase = .wrJ ∧ t.seq = s.seq.write s.j.toNat s.t0) ∨
    (s.busy = true ∧ s.phase = .wrR ∧ t.seq = s.seq.write s.r.toNat s.t1) ∨
    (s.busy = false ∧ ∃ k x rest, s.host = .store k x :: rest ∧
      t.seq = s.seq.write k.toNat (x % 2 ^ s.config.elemW)) := by
  obtain ⟨-, -, rfl⟩ | ⟨rest, -, -, rfl⟩ | ⟨rest, -, rfl⟩ | ⟨k, x, rest, hb, hh, rfl⟩ | ⟨c, rest, -, -, h⟩ |
    ⟨rest, hb, -, h⟩ | ⟨hb, -, h⟩ := step_next h
  · exact .inl rfl
  · exact .inl rfl
  · exact .inl rfl
  · exact .inr (.inr (.inr ⟨hb, k, x, rest, hh, rfl⟩))
  · obtain ⟨i, -, h⟩ | ⟨e, -, rfl⟩ := acceptCommand_next h
    · exact .inl (exec_effect h).seq_eq
    · exact .inl rfl
  · exact (controllerStep_seq h).imp_right (Or.imp (And.intro hb) fun hw => .inl ⟨hb, hw⟩)
  · exact (controllerStep_seq h).imp_right (Or.imp (And.intro hb) fun hw => .inl ⟨hb, hw⟩)

/-- An element that a write to SEQ changes is the one at its index (R42). -/
theorem index_eq_of_memRead_ne {s t : State} (hwf : s.seq.wf) {k i : Nat} {x : Elem} (ht : t.seq = s.seq.write k x)
    (hne : t.memRead i ≠ s.memRead i) : i = k := by
  by_contra hik
  exact hne (by rw [State.memRead, ht, Memory.read_write hwf, if_neg hik, State.memRead])

/-- In the two writing phases both indexes of the swap are positions of the sequence (R131, R135). -/
theorem State.Inv.swap_inside {s : State} (hs : s.Inv) (hb : s.busy = true) (hp : s.phase = .wrJ ∨ s.phase = .wrR) :
    s.j.toNat < s.n.toNat ∧ s.r.toNat < s.n.toNat := by
  obtain ⟨-, v, -, hok⟩ := hs.controller hb
  have hj : s.j.toNat < s.n.toNat := hok.inside (by rcases hp with hp | hp <;> simp [hp])
  exact ⟨hj, (hok.accepted (.inr (.inr hp))).trans_lt hj⟩

/-- Settles O50: of the three ways to SEQ each changes the element at its own index alone, and the invariant keeps the two
indexes of a swap inside the sequence. -/
theorem onlyShuffleReachesSeq : Obligations.OnlyShuffleReachesSeq := by
  refine ⟨fun i s t h => (exec_effect h).seq_eq, fun s t hs h i hne => ?_⟩
  obtain ht | ⟨hb, hp, ht⟩ | ⟨hb, hp, ht⟩ | ⟨hb, k, x, rest, hh, ht⟩ := step_seq h
  · exact absurd (congrArg (Memory.read · i) ht) hne
  · obtain rfl := index_eq_of_memRead_ne hs.seqWf ht hne
    exact .inl ⟨hb, hp, rfl, (hs.swap_inside hb (.inl hp)).1⟩
  · obtain rfl := index_eq_of_memRead_ne hs.seqWf ht hne
    exact .inr (.inl ⟨hb, hp, rfl, (hs.swap_inside hb (.inr hp)).2⟩)
  · exact .inr (.inr ⟨hb, k, x, rest, hh, index_eq_of_memRead_ne hs.seqWf ht hne⟩)

/-! ### Other elements, the same generator (R41, R140) -/

/-- The state with other elements in SEQ and in T0 and T1. -/
def State.withElements (s : State) (m : Memory) (a b : Elem) : State := { s with seq := m, t0 := a, t1 := b }

theorem sameButElements_iff {s s' : State} : SameButElements s s' ↔ ∃ m a b, s' = s.withElements m a b :=
  ⟨fun h => ⟨_, _, _, h⟩, by rintro ⟨m, a, b, rfl⟩; rfl⟩

section
variable (s : State) (m : Memory) (a b : Elem)

@[simp] theorem State.withElements_config : (s.withElements m a b).config = s.config := rfl
@[simp] theorem State.withElements_configured : (s.withElements m a b).configured = s.configured := rfl
@[simp] theorem State.withElements_ver : (s.withElements m a b).ver = s.ver := rfl
@[simp] theorem State.withElements_n : (s.withElements m a b).n = s.n := rfl
@[simp] theorem State.withElements_j : (s.withElements m a b).j = s.j := rfl
@[simp] theorem State.withElements_b : (s.withElements m a b).b = s.b := rfl
@[simp] theorem State.withElements_hi : (s.withElements m a b).hi = s.hi := rfl
@[simp] theorem State.withElements_busy : (s.withElements m a b).busy = s.busy := rfl
@[simp] theorem State.withElements_phase : (s.withElements m a b).phase = s.phase := rfl
@[simp] theorem State.withElements_host : (s.withElements m a b).host = s.host := rfl
@[simp] theorem State.withElements_tab : (s.withElements m a b).tab = s.tab := rfl
@[simp] theorem State.withElements_cur : (s.withElements m a b).cur = s.cur := rfl
@[simp] theorem State.setWords_withElements (w x y z : Word) :
    (s.withElements m a b).setWords w x y z = (s.setWords w x y z).withElements m a b := rfl
@[simp] theorem State.setTab_withElements (l : List Word) :
    (s.withElements m a b).setTab l = (s.setTab l).withElements m a b := rfl
@[simp] theorem State.setCur_withElements (x : Word) :
    (s.withElements m a b).setCur x = (s.setCur x).withElements m a b := rfl

/-- `next_raw` neither reads nor writes an element (R87). -/
@[simp] theorem nextRaw_withElements (alg : RawAlg) :
    nextRaw alg (s.withElements m a b) = ((nextRaw alg s).1, (nextRaw alg s).2.withElements m a b) := by
  cases alg <;> rfl

@[simp] theorem rawOutputs_withElements (alg : RawAlg) (k : Nat) :
    rawOutputs alg k (s.withElements m a b) = ((rawOutputs alg k s).1, (rawOutputs alg k s).2.withElements m a b) := by
  induction k generalizing s with
  | zero => rfl
  | succ k ih => simp [rawOutputs, ih]

/-- Seeding the raw state neither reads nor writes an element (R83). -/
@[simp] theorem seedRaw_withElements (alg : RawAlg) (x : Word) :
    seedRaw alg x (s.withElements m a b) = (seedRaw alg x s).withElements m a b := by
  cases alg with
  | lcg16 | lcg26 | lcg32 | xs32 => rfl
  | xs128 => simp [seedRaw, seedXs128]

@[simp] theorem bdFill_withElements (alg : RawAlg) :
    bdFill alg (s.withElements m a b) = (bdFill alg s).withElements m a b := by
  simp [bdFill]

/-- `seed_all` neither reads nor writes an element (R83). -/
@[simp] theorem seedAll_withElements (v : Version) (x : Word) :
    seedAll v x (s.withElements m a b) = (seedAll v x s).withElements m a b := by
  unfold seedAll
  split <;> simp

/-- `get()` neither reads nor writes an element (R114, R115). -/
@[simp] theorem getOutput_withElements (v : Version) :
    getOutput v (s.withElements m a b) = ((getOutput v s).1, (getOutput v s).2.withElements m a b) := by
  unfold getOutput
  split <;> simp [getWrapped]

end

/-! ### Other elements, the same step -/

/-- Two outcomes are alike: next states that differ at most in elements, or the same fault. -/
inductive Alike : Host.Outcome State Fault Refusal → Host.Outcome State Fault Refusal → Prop where
  | next (t : State) (m : Memory) (a b : Elem) : Alike (.next t) (.next (t.withElements m a b))
  | fault (r : Fault) : Alike (.fault r) (.fault r)

theorem Alike.exists_next {t : State} {o : Host.Outcome State Fault Refusal} (h : Alike (.next t) o) :
    ∃ t', o = .next t' ∧ SameButElements t t' := by
  cases h
  exact ⟨_, rfl, rfl⟩

theorem Alike.eq_fault {r : Fault} {o : Host.Outcome State Fault Refusal} (h : Alike (.fault r) o) : o = .fault r := by
  cases h
  rfl

section
variable (s : State) (m : Memory) (a b : Elem)

theorem alike_respond (st : Status) (d : BitVec 64) : Alike (respond st d s) (respond st d (s.withElements m a b)) :=
  .next (s.issue ⟨st, d⟩) m a b

theorem alike_raise (e : Error) : Alike (raise e s) (raise e (s.withElements m a b)) := alike_respond s m a b _ _

/-- The guard reads CONFIGURED and VER alone (R185). -/
theorem alike_withVersion {k k' : Version → Host.Outcome State Fault Refusal} (h : ∀ v, Alike (k v) (k' v)) :
    Alike (withVersion s k) (withVersion (s.withElements m a b) k') := by
  unfold withVersion
  rw [State.withElements_configured, State.withElements_ver]
  split
  · split
    · exact h _
    · exact .fault _
  · exact alike_raise s m a b _

theorem alike_execConstruct (ver : BitVec 8) (arg : Arg) :
    Alike (execConstruct ver arg s) (execConstruct ver arg (s.withElements m a b)) := by
  unfold execConstruct
  split
  next => exact alike_raise s m a b _
  next v _ =>
    split
    · exact alike_raise s m a b _
    · have hseed := seedAll_withElements (s.setInstance ver) m a b v (seedLow v arg)
      exact hseed ▸ alike_respond _ m a b _ _

theorem alike_execSeed (arg : Arg) : Alike (execSeed arg s) (execSeed arg (s.withElements m a b)) :=
  alike_withVersion s m a b fun v => by
    split
    · exact alike_raise s m a b _
    · rw [seedAll_withElements]
      exact alike_respond _ m a b _ _

theorem alike_execNextRaw : Alike (execNextRaw s) (execNextRaw (s.withElements m a b)) :=
  alike_withVersion s m a b fun v => by
    rw [nextRaw_withElements]
    exact alike_respond _ m a b _ _

theorem alike_execGet : Alike (execGet s) (execGet (s.withElements m a b)) :=
  alike_withVersion s m a b fun v => by
    rw [getOutput_withElements]
    exact alike_respond _ m a b _ _

theorem alike_execShuffle (arg : Arg) : Alike (execShuffle arg s) (execShuffle arg (s.withElements m a b)) :=
  alike_withVersion s m a b fun v => by
    split
    · exact alike_raise s m a b _
    · exact .next (s.startShuffle (arg.setWidth 33)) m a b

theorem alike_execRdcfg (sel : BitVec 8) : Alike (execRdcfg sel s) (execRdcfg sel (s.withElements m a b)) := by
  unfold execRdcfg
  split
  · exact alike_respond s m a b _ (statusWord s)
  · split
    · exact alike_raise s m a b _
    · exact alike_withVersion s m a b fun v => alike_respond s m a b _ (configValue sel v s)

theorem alike_exec (i : Instr) : Alike (exec i s) (exec i (s.withElements m a b)) := by
  cases i with
  | nop => exact alike_respond s m a b _ _
  | construct ver arg => exact alike_execConstruct s m a b ver arg
  | seed arg => exact alike_execSeed s m a b arg
  | nextRaw => exact alike_execNextRaw s m a b
  | get => exact alike_execGet s m a b
  | shuffle arg => exact alike_execShuffle s m a b arg
  | rdcfg sel => exact alike_execRdcfg s m a b sel

theorem alike_acceptCommand (c : Command) : Alike (acceptCommand c s) (acceptCommand c (s.withElements m a b)) := by
  unfold acceptCommand
  split
  · exact alike_exec s m a b _
  · exact alike_raise s m a b _

/-- LOOP compares J and N, no element (R142). -/
theorem alike_phaseLoop : Alike (phaseLoop s) (phaseLoop (s.withElements m a b)) := by
  unfold phaseLoop
  rw [State.withElements_n, State.withElements_j]
  split
  · exact alike_respond s m a b _ _
  · exact .next (s.setPhase .width) m a b

/-- WIDTH compares J and HI, no element (R133). -/
theorem alike_phaseWidth : Alike (phaseWidth s) (phaseWidth (s.withElements m a b)) := by
  unfold phaseWidth
  rw [State.withElements_j, State.withElements_hi]
  split
  · exact .next ((s.setBHi (s.b + 1) (s.hi <<< 1)).setPhase .draw) m a b
  · exact .next (s.setPhase .draw) m a b

/-- A draw reads the generator and B, no element (R134). -/
theorem alike_phaseDraw : Alike (phaseDraw s) (phaseDraw (s.withElements m a b)) := by
  unfold phaseDraw
  rw [State.withElements_configured, State.withElements_ver, State.withElements_b]
  split
  · split
    · rw [getOutput_withElements]
      exact .next (((getOutput _ s).2.setR _).setPhase .test) m a b
    · exact .fault _
  · exact .fault _

/-- One phase moves elements or compares positions, never an element (R136, R140). -/
theorem alike_controllerStep : Alike (controllerStep s) (controllerStep (s.withElements m a b)) := by
  unfold controllerStep
  rw [State.withElements_phase]
  cases s.phase with
  | loop => exact alike_phaseLoop s m a b
  | width => exact alike_phaseWidth s m a b
  | draw => exact alike_phaseDraw s m a b
  | test => exact .next _ m a b
  | rdR => exact .next _ m (m.read s.r.toNat) b
  | rdJ => exact .next _ m a (m.read s.j.toNat)
  | wrJ => exact .next _ (m.write s.j.toNat a) a b
  | wrR => exact .next _ (m.write s.r.toNat b) a b

theorem alike_blockStep : Alike (blockStep s) (blockStep (s.withElements m a b)) := by
  unfold blockStep
  rw [State.withElements_busy]
  split
  · exact alike_controllerStep s m a b
  · exact .next s m a b

theorem alike_whenFree {move move' : Host.Outcome State Fault Refusal} (h : Alike move move') :
    Alike (whenFree s move) (whenFree (s.withElements m a b) move') := by
  unfold whenFree
  rw [State.withElements_busy]
  split
  · exact alike_controllerStep s m a b
  · exact h

theorem alike_step : Alike (step s) (step (s.withElements m a b)) := by
  unfold step hostStep
  rw [State.withElements_host]
  split
  next => exact alike_blockStep s m a b
  next rest _ => exact alike_blockStep (s.setHost rest) m a b
  next rest _ => exact .next (applyReset (s.setHost rest)) m 0 0
  next i x rest _ =>
    exact alike_whenFree s m a b (.next (hostStore i x (s.setHost rest)) (m.write i.toNat (x % 2 ^ s.config.elemW)) a b)
  next c rest _ => exact alike_whenFree s m a b (alike_acceptCommand (s.setHost rest) m a b c)

end

/-- Settles O51: with other elements the step is alike, operation by operation. -/
theorem elementsNeverInfluence : Obligations.ElementsNeverInfluence := by
  intro s s' h
  obtain ⟨m, a, b, rfl⟩ := sameButElements_iff.mp h
  exact ⟨fun t ht => (ht ▸ alike_step s m a b).exists_next, fun r hr => (hr ▸ alike_step s m a b).eq_fault⟩

end Sys2Proof.Machine
end

section
/-! PROOFS of 30_encoding.md. Decoding and encoding (R61 to R74), the rows of the opcode map (R64), the answer to every
presented command (R60, R68, R69), the supported versions (R66), and the assembler's lines (R72, R73). -/

namespace Sys2Proof

/-! ### The fields of a command word (R61) -/

theorem toNat_opField (cw : CmdWord) : (opField cw).toNat = cw.toNat % 2 ^ 8 := by
  simp [opField, BitVec.extractLsb'_toNat]

theorem toNat_immField (cw : CmdWord) : (immField cw).toNat = cw.toNat / 2 ^ 8 % 2 ^ 8 := by
  simp [immField, BitVec.extractLsb'_toNat, Nat.shiftRight_eq_div_pow]

theorem toNat_rsvField (cw : CmdWord) : (rsvField cw).toNat = cw.toNat / 2 ^ 16 := by
  have := cw.isLt
  simp [rsvField, BitVec.extractLsb'_toNat, Nat.shiftRight_eq_div_pow]
  omega

theorem toNat_cmdWord (op imm : BitVec 8) : (cmdWord op imm).toNat = 2 ^ 8 * imm.toNat + op.toNat := by
  have happ : (cmdWord op imm).toNat = (0#16 ++ imm).toNat <<< 8 ||| op.toNat := BitVec.toNat_append _ _
  rw [happ, ← Nat.shiftLeft_add_eq_or_of_lt op.isLt, Nat.shiftLeft_eq, Nat.mul_comm, BitVec.toNat_append]
  simp

@[simp] theorem opField_cmdWord (op imm : BitVec 8) : opField (cmdWord op imm) = op := by
  rw [← BitVec.toNat_inj, toNat_opField, toNat_cmdWord]
  omega

@[simp] theorem immField_cmdWord (op imm : BitVec 8) : immField (cmdWord op imm) = imm := by
  rw [← BitVec.toNat_inj, toNat_immField, toNat_cmdWord]
  omega

@[simp] theorem rsvField_cmdWord (op imm : BitVec 8) : rsvField (cmdWord op imm) = 0#16 := by
  rw [← BitVec.toNat_inj, toNat_rsvField, toNat_cmdWord, BitVec.toNat_zero]
  omega

/-- A word is its three fields. -/
theorem cmdWord_ext_iff {v w : CmdWord} :
    v = w ↔ rsvField v = rsvField w ∧ immField v = immField w ∧ opField v = opField w := by
  simp only [← BitVec.toNat_inj, toNat_rsvField, toNat_immField, toNat_opField]
  omega

theorem cmdWord_fields {w : CmdWord} (h : rsvField w = 0#16) : cmdWord (opField w) (immField w) = w :=
  cmdWord_ext_iff.mpr (by simp [h])

/-! ### The decoder, by opcode (R69, R74) -/

/-- The command with another operand, where it has one. -/
def Instr.withArg : Instr → Arg → Instr
  | .construct ver _, arg => .construct ver arg
  | .seed _, arg => .seed arg
  | .shuffle _, arg => .shuffle arg
  | i, _ => i

theorem Instr.withArg_encode (i : Instr) : i.withArg (encode i).arg = i := by cases i <;> rfl

theorem noImm_eq_ok {cw : CmdWord} {i j : Instr} : noImm cw i = .ok j ↔ immField cw = 0#8 ∧ i = j := by
  unfold noImm
  split <;> simp_all

theorem noImm_eq_error {cw : CmdWord} (h : immField cw ≠ 0#8) (i : Instr) : noImm cw i = .error .immNotZero :=
  if_neg h

section
variable {c : Command}

theorem decode_reserved (h : rsvField c.cw ≠ 0#16) : decode c = .error .reservedBits := by
  simp [decode, h]

variable (hrsv : rsvField c.cw = 0#16)
include hrsv

theorem decode_unknown (hop : 6 < (opField c.cw).toNat) : decode c = .error .unknownOpcode := by
  unfold decode
  split
  · contradiction
  · split
    case h_8 => rfl
    all_goals omega

theorem decode_construct (hop : (opField c.cw).toNat = 1) : decode c = .ok (.construct (immField c.cw) c.arg) := by
  simp [decode, hrsv, hop]

theorem decode_rdcfg (hop : (opField c.cw).toNat = 6) :
    decode c = if (immField c.cw).toNat ≤ 5 then .ok (.rdcfg (immField c.cw)) else .error .badSelector := by
  simp [decode, hrsv, hop]

/-- The commands without an immediate decode alike: each has its own word, with immediate 0 (R69 (c)). -/
theorem decode_noImm (hop : (opField c.cw).toNat ∈ [0, 2, 3, 4, 5]) :
    ∃ i, i.wf = true ∧ (encode i).cw = cmdWord (opField c.cw) 0#8 ∧ i.withArg c.arg = i ∧
      decode c = noImm c.cw i := by
  have hcw {n : Nat} (h : (opField c.cw).toNat = n) : opField c.cw = BitVec.ofNat 8 n := by simp [← h]
  simp only [List.mem_cons, List.not_mem_nil, or_false] at hop
  obtain h | h | h | h | h := hop
  · exact ⟨.nop, rfl, by rw [hcw h]; rfl, rfl, by simp [decode, hrsv, h]⟩
  · exact ⟨.seed c.arg, rfl, by rw [hcw h]; rfl, rfl, by simp [decode, hrsv, h]⟩
  · exact ⟨.nextRaw, rfl, by rw [hcw h]; rfl, rfl, by simp [decode, hrsv, h]⟩
  · exact ⟨.get, rfl, by rw [hcw h]; rfl, rfl, by simp [decode, hrsv, h]⟩
  · exact ⟨.shuffle c.arg, rfl, by rw [hcw h]; rfl, rfl, by simp [decode, hrsv, h]⟩

end

/-! ### Decoding and encoding are inverse (R61, R62, R64) -/

/-- A word that decodes is the word of the command read, and the command's operand is the one presented. -/
theorem encode_cw_of_decode {c : Command} {i : Instr} (h : decode c = .ok i) :
    i.wf = true ∧ (encode i).cw = c.cw ∧ i.withArg c.arg = i := by
  by_cases hrsv : rsvField c.cw = 0#16
  case neg => simp [decode_reserved hrsv] at h
  rw [← cmdWord_fields hrsv]
  obtain hop | hop | hop | hop : (opField c.cw).toNat ∈ [0, 2, 3, 4, 5] ∨ (opField c.cw).toNat = 1 ∨
      (opField c.cw).toNat = 6 ∨ 6 < (opField c.cw).toNat := by
    simp only [List.mem_cons, List.not_mem_nil, or_false]
    omega
  · obtain ⟨j, hwf, hcw, harg, hj⟩ := decode_noImm hrsv hop
    obtain ⟨himm, rfl⟩ := noImm_eq_ok.mp (hj.symm.trans h)
    exact ⟨hwf, by rw [hcw, himm], harg⟩
  · obtain rfl := Except.ok.inj ((decode_construct hrsv hop).symm.trans h)
    have h1 : opField c.cw = 1#8 := BitVec.eq_of_toNat_eq hop
    exact ⟨rfl, by rw [h1]; rfl, rfl⟩
  · rw [decode_rdcfg hrsv hop] at h
    have h6 : opField c.cw = 6#8 := BitVec.eq_of_toNat_eq hop
    split at h
    next hsel =>
      obtain rfl := Except.ok.inj h
      exact ⟨by simpa [Instr.wf] using hsel, by rw [h6]; rfl, rfl⟩
    next => cases h
  · simp [decode_unknown hrsv hop] at h

/-- The word of a legal command decodes to the command, with the operand presented beside it. -/
theorem decode_encode_cw {i : Instr} (h : i.wf = true) (arg : Arg) :
    decode ⟨(encode i).cw, arg⟩ = .ok (i.withArg arg) := by
  cases i with
  | rdcfg sel =>
    have hsel : sel.toNat ≤ 5 := by simpa [Instr.wf] using h
    simp [decode, encode, Instr.withArg, hsel]
  | nop | construct | seed | nextRaw | get | shuffle => simp [decode, encode, noImm, Instr.withArg]

/-- Settles O3: the word decodes to the command with the operand beside it, which is the command's own. -/
theorem decodeInvertsEncode : Obligations.DecodeInvertsEncode := by
  intro i hwf
  exact (decode_encode_cw hwf (encode i).arg).trans (congrArg Except.ok i.withArg_encode)

/-- Settles O4: the word is the command's own, and `withArg` says which commands carry the operand. -/
theorem encodeInvertsDecode : Obligations.EncodeInvertsDecode := by
  intro c i h
  obtain ⟨hwf, hcw, harg⟩ := encode_cw_of_decode h
  refine ⟨hwf, hcw, ?_, ?_⟩
  · rw [← harg]
    cases i <;> simp [encode, Instr.withArg]
  · rintro arg (rfl | rfl | ⟨ver, rfl⟩) <;> simpa [Instr.withArg, eq_comm] using harg

/-! ### The rows of the opcode map (R64) -/

theorem opRow_mem (i : Instr) : opRow i ∈ opRows := by cases i <;> simp [opRow, opRows]

theorem opRow_selects_encode (i : Instr) : (opRow i).selects (encode i).cw = true := by
  cases i with
  | nop => exact Laws.OpcodeRow.nop.1
  | construct ver arg => exact (Laws.OpcodeRow.construct ver arg).1
  | seed arg => exact (Laws.OpcodeRow.seed arg).1
  | nextRaw => exact Laws.OpcodeRow.nextRaw.1
  | get => exact Laws.OpcodeRow.get.1
  | shuffle arg => exact (Laws.OpcodeRow.shuffle arg).1
  | rdcfg sel => exact (Laws.OpcodeRow.rdcfg sel).1

/-- A row whose mask leaves the immediate free is selected by the words of its opcode. -/
theorem eq_cmdWord_of_and_eq {w : CmdWord} {op : BitVec 8} (h : w &&& 0xFFFF00FF#32 = cmdWord op 0#8) :
    w = cmdWord op (immField w) := by
  have hrsv : rsvField (w &&& 0xFFFF00FF#32) = rsvField w := by
    rw [rsvField, BitVec.extractLsb'_and]; exact BitVec.and_allOnes
  have hop : opField (w &&& 0xFFFF00FF#32) = opField w := by
    rw [opField, BitVec.extractLsb'_and]; exact BitVec.and_allOnes
  exact cmdWord_ext_iff.mpr ⟨by simp [← hrsv, h], by simp, by simp [← hop, h]⟩

/-- A word that selects a row is the word of one of the row's commands. -/
theorem exists_encode_of_selects {row : OpRow} {w : CmdWord} (hrow : row ∈ opRows) (h : row.selects w = true) :
    ∃ i, opRow i = row ∧ (encode i).cw = w := by
  simp only [OpRow.selects, beq_iff_eq] at h
  have hall (p : CmdWord) (h : w &&& 0xFFFFFFFF#32 = p) : p = w := h.symm.trans BitVec.and_allOnes
  simp only [opRows, List.mem_cons, List.not_mem_nil, or_false] at hrow
  obtain rfl | rfl | rfl | rfl | rfl | rfl | rfl := hrow
  · exact ⟨.nop, rfl, hall _ h⟩
  · exact ⟨.construct (immField w) 0, rfl, (eq_cmdWord_of_and_eq h).symm⟩
  · exact ⟨.seed 0, rfl, hall _ h⟩
  · exact ⟨.nextRaw, rfl, hall _ h⟩
  · exact ⟨.get, rfl, hall _ h⟩
  · exact ⟨.shuffle 0, rfl, hall _ h⟩
  · exact ⟨.rdcfg (immField w), rfl, (eq_cmdWord_of_and_eq h).symm⟩

/-- The selector of RDCFG is the one thing a row leaves to be tested (R69 (d)). -/
theorem wf_iff_of_pattern (i : Instr) :
    i.wf = true ↔ ((opRow i).pattern = 6 → (immField (encode i).cw).toNat ≤ 5) := by
  cases i <;> simp [Instr.wf, opRow, encode]

/-- A row's pattern is its opcode, with everything else 0. -/
theorem opRow_pattern (i : Instr) : (opRow i).pattern = cmdWord (opField (encode i).cw) 0#8 := by
  cases i <;> simp [opRow, encode] <;> rfl

theorem opRow_eq_of_pattern : ∀ p ∈ opRows, ∀ q ∈ opRows, p.pattern = q.pattern → p = q := by decide

/-- Settles O5: a row is selected by the words of its commands alone, and a word is one of these words exactly when it
decodes, but for the selector of RDCFG. -/
theorem opcodeRowsDecideDecoding : Obligations.OpcodeRowsDecideDecoding := by
  refine ⟨fun c i h => ?_, fun c => ⟨fun ⟨i, h⟩ => ?_, fun ⟨row, hrow, hsel, himm⟩ => ?_⟩,
    fun w p hp q hq hpw hqw => ?_⟩
  · obtain ⟨-, hcw, -⟩ := encode_cw_of_decode h
    exact ⟨hcw ▸ opRow_selects_encode i, opRow_mem i⟩
  · obtain ⟨hwf, hcw, -⟩ := encode_cw_of_decode h
    rw [wf_iff_of_pattern, hcw, toNat_immField] at hwf
    exact ⟨opRow i, opRow_mem i, hcw ▸ opRow_selects_encode i, hwf⟩
  · obtain ⟨i, rfl, hcw⟩ := exists_encode_of_selects hrow hsel
    rw [← toNat_immField, ← hcw, ← wf_iff_of_pattern] at himm
    have h := decode_encode_cw himm c.arg
    rw [hcw] at h
    exact ⟨_, h⟩
  · obtain ⟨i, rfl, rfl⟩ := exists_encode_of_selects hp hpw
    obtain ⟨j, rfl, hij⟩ := exists_encode_of_selects hq hqw
    exact opRow_eq_of_pattern _ hp _ hq (by rw [opRow_pattern, opRow_pattern, hij])

end Sys2Proof

namespace Sys2Proof.Machine

/-! ### A command presented to a free block (R69, R74, R205) -/

theorem acceptCommand_ok {c : Command} {i : Instr} (h : decode c = .ok i) (s : State) :
    acceptCommand c s = exec i s := by
  simp [acceptCommand, h]

theorem acceptCommand_error {c : Command} {e : DecodeError} (h : decode c = .error e) (s : State) :
    acceptCommand c s = raise .illegalCommand s := by
  simp [acceptCommand, h]

/-- A command presented to a free block is accepted in the next step (R205). -/
theorem step_command {s : State} {c : Command} {rest : List HostMove} (hb : s.busy = false)
    (hh : s.host = .command c :: rest) : step s = acceptCommand c (s.setHost rest) := by
  simp [step, hostStep, whenFree, hb, hh]

/-- Settles O1: the step accepts the command, and an accepted command is run as it decodes. -/
theorem stepRunsDecodedCommand : Obligations.StepRunsDecodedCommand :=
  ⟨fun _ _ _ _ hb hh hi => (step_command hb hh).trans (acceptCommand_ok hi _),
    fun s _ _ _ hi => step_presentCommand (decodeTableWord_eq_some.mp hi) s⟩

/-- On a free block an error adds its response and leaves BUSY as it is (R187, R188). -/
theorem raise_of_free {s : State} (hb : s.busy = false) (e : Error) :
    raise e s = .next { s with responses := ⟨e.status, 0⟩ :: s.responses } := by
  rw [raise_eq_next]
  cases s
  subst hb
  rfl

theorem execConstruct_unsupported {ver : BitVec 8} (h : supported ver = false) (arg : Arg) (s : State) :
    execConstruct ver arg s = raise .unsupportedVersion s := by
  have hv : versionOf ver = none := by simpa [supported] using h
  simp [execConstruct, hv]

/-- Settles O2: the decoder by opcode, and a free block's step, which accepts the word. -/
theorem illegalCommandWordAnswered : Obligations.IllegalCommandWordAnswered := by
  refine ⟨fun c => ?_, fun s c rest e hb hh he => ?_, fun s c rest hb hh hrsv hop hver => ?_⟩
  · have hrsv : (rsvField c.cw).toNat = 0 ↔ rsvField c.cw = 0#16 := BitVec.toNat_inj (y := 0#16)
    have himm : (immField c.cw).toNat = 0 ↔ immField c.cw = 0#8 := BitVec.toNat_inj (y := 0#8)
    simp only [← toNat_opField, ← toNat_immField, ← toNat_rsvField, ne_eq, hrsv, himm, BitVec.ofNat_toNat,
      BitVec.setWidth_eq]
    refine ⟨decode_reserved, decode_unknown, fun hr hop hi => ?_, fun hr hop hi => ?_, fun hr hop hi => ?_,
      fun hr hop hi => ?_, decode_construct⟩
    · obtain ⟨i, -, -, -, h⟩ := decode_noImm hr (by simpa using hop)
      exact h.trans (noImm_eq_error hi i)
    · exact (decode_rdcfg hr hop).trans (if_neg (by omega))
    · obtain ⟨i, -, -, -, h⟩ := decode_noImm hr (by simpa using hop)
      exact ⟨i, h.trans (noImm_eq_ok.mpr ⟨hi, rfl⟩)⟩
    · exact ⟨_, (decode_rdcfg hr hop).trans (if_pos hi)⟩
  · rw [step_command hb hh, acceptCommand_error he]
    exact raise_of_free (s := s.setHost rest) hb _
  · rw [← toNat_immField, BitVec.ofNat_toNat, BitVec.setWidth_eq] at hver
    rw [← toNat_rsvField] at hrsv
    rw [← toNat_opField] at hop
    have hc : decode c = _ := decode_construct (BitVec.eq_of_toNat_eq hrsv) hop
    rw [step_command hb hh, acceptCommand_ok hc]
    exact (execConstruct_unsupported hver _ _).trans (raise_of_free (s := s.setHost rest) hb _)

/-! ### One response per command (R60) -/

/-- A phase of the controller: BUSY and the responses stand, or the last phase answers (OK, 0) (R142). -/
theorem controllerStep_responses {s t : State} (h : controllerStep s = .next t) :
    t.host = s.host ∧
      ((t.busy = s.busy ∧ t.responses = s.responses) ∨ (t.busy = false ∧ t.responses = ⟨.ok, 0⟩ :: s.responses)) := by
  obtain ⟨-, -, rfl⟩ | ⟨-, -, rfl⟩ | ⟨-, -, rfl⟩ | ⟨-, -, rfl⟩ | ⟨-, -, v, -, rfl⟩ | ⟨-, -, rfl⟩ | ⟨-, -, rfl⟩ |
    ⟨-, rfl⟩ | ⟨-, rfl⟩ | ⟨-, rfl⟩ | ⟨-, rfl⟩ := controllerStep_next h
  case inl => exact ⟨rfl, .inr ⟨rfl, rfl⟩⟩
  all_goals simp

/-- A move that is held off, or none, leaves the step to the controller (R205). -/
theorem step_heldOff {s : State} (hb : s.busy = true) (hh : HostHeldOff s.host) : step s = controllerStep s := by
  unfold step hostStep
  cases h : s.host with
  | nil => simp [blockStep, hb]
  | cons m rest =>
    obtain ⟨hwait, hreset⟩ := hh m (by simp [h])
    cases m with
    | wait => contradiction
    | reset => contradiction
    | command | store => simp [whenFree, hb]

/-- Settles O45: of what a command can do only a started SHUFFLE issues nothing, and of its phases only the last answers. -/
theorem oneResponsePerCommand : Obligations.OneResponsePerCommand := by
  refine ⟨fun i s t h => ?_, fun s t hb hh h => ?_⟩
  · cases exec_effect h with
    | starts => exact .inr ⟨rfl, rfl, _, rfl⟩
    | answers | constructs | seeds | drawsRaw | draws => simp
  · rw [step_heldOff hb hh] at h
    rw [← hb]
    exact controllerStep_responses h

/-! ### The outcome codes (R68) -/

/-- The commands that need an instance (R185). -/
def NeedsInstance (i : Instr) : Prop :=
  (∃ arg, i = .seed arg) ∨ i = .nextRaw ∨ i = .get ∨ (∃ arg, i = .shuffle arg) ∨
    ∃ sel : BitVec 8, sel.toNat ≤ 4 ∧ i = .rdcfg sel

/-- The outcomes that the table of R68 names for a command. -/
inductive MayAnswer : Instr → Status → Prop where
  | ok (i : Instr) : MayAnswer i .ok
  | seedNegative (arg : Arg) : MayAnswer (.seed arg) .invalidSeed
  | constructNegative (ver : BitVec 8) (arg : Arg) : MayAnswer (.construct ver arg) .invalidSeed
  | unsupported (ver : BitVec 8) (arg : Arg) : MayAnswer (.construct ver arg) .unsupportedVersion
  | tooLong (arg : Arg) : MayAnswer (.shuffle arg) .sequenceTooLong
  | unconstructed {i : Instr} (h : NeedsInstance i) : MayAnswer i .notConstructed

/-- A legal command answers nothing yet, or with an outcome the table names for it. -/
theorem exec_mayAnswer {i : Instr} {s t : State} (hwf : i.wf = true) (h : exec i s = .next t) :
    t.responses = s.responses ∨ ∃ st d, MayAnswer i st ∧ t.responses = ⟨st, d⟩ :: s.responses := by
  cases i with
  | nop =>
    obtain rfl := execNop_next h
    exact .inr ⟨_, _, .ok _, rfl⟩
  | construct ver arg =>
    obtain ⟨-, rfl⟩ | ⟨v, -, ⟨-, rfl⟩ | ⟨-, rfl⟩⟩ := execConstruct_next h
    · exact .inr ⟨_, _, .unsupported ver arg, rfl⟩
    · exact .inr ⟨_, _, .constructNegative ver arg, rfl⟩
    · exact .inr ⟨_, _, .ok _, congrArg (_ :: ·) (seedAll_responses v _ (s.setInstance ver))⟩
  | seed arg =>
    obtain ⟨-, rfl⟩ | ⟨-, v, -, ⟨-, rfl⟩ | ⟨-, rfl⟩⟩ := execSeed_next h
    · exact .inr ⟨_, _, .unconstructed (by simp [NeedsInstance]), rfl⟩
    · exact .inr ⟨_, _, .seedNegative arg, rfl⟩
    · exact .inr ⟨_, _, .ok _, congrArg (_ :: ·) (seedAll_responses v _ s)⟩
  | nextRaw =>
    obtain ⟨-, rfl⟩ | ⟨-, v, -, rfl⟩ := execNextRaw_next h
    · exact .inr ⟨_, _, .unconstructed (by simp [NeedsInstance]), rfl⟩
    · exact .inr ⟨_, _, .ok _, congrArg (_ :: ·) (nextRaw_responses v.raw s)⟩
  | get =>
    obtain ⟨-, rfl⟩ | ⟨-, v, -, rfl⟩ := execGet_next h
    · exact .inr ⟨_, _, .unconstructed (by simp [NeedsInstance]), rfl⟩
    · exact .inr ⟨_, _, .ok _, congrArg (_ :: ·) (getOutput_responses v s)⟩
  | shuffle arg =>
    obtain ⟨-, rfl⟩ | ⟨-, v, -, ⟨-, rfl⟩ | ⟨-, rfl⟩⟩ := execShuffle_next h
    · exact .inr ⟨_, _, .unconstructed (by simp [NeedsInstance]), rfl⟩
    · exact .inr ⟨_, _, .tooLong arg, rfl⟩
    · exact .inl rfl
  | rdcfg sel =>
    have hsel : sel.toNat ≤ 5 := by simpa [Instr.wf] using hwf
    obtain ⟨-, rfl⟩ | ⟨hlt, -⟩ | ⟨hlt, -, rfl⟩ | ⟨-, -, v, -, rfl⟩ := execRdcfg_next h
    · exact .inr ⟨_, _, .ok _, rfl⟩
    · omega
    · exact .inr ⟨_, _, .unconstructed (by simp [NeedsInstance]; omega), rfl⟩
    · exact .inr ⟨_, _, .ok _, rfl⟩

/-- Settles O60: the newest response is the command's own, whose outcome the table names for it. -/
theorem outcomesHaveTheRulesNumbers : Obligations.OutcomesHaveTheRulesNumbers := by
  refine ⟨⟨rfl, rfl⟩, fun st => ?_, fun s t e h => ?_, fun c s t r h hr => ?_⟩
  · cases st <;> decide
  · obtain rfl := (raise_eq_next e s t).mp h
    exact ⟨_, rfl, rfl, by cases e <;> rfl⟩
  · obtain ⟨i, hi, h⟩ | ⟨e, he, rfl⟩ := acceptCommand_next h
    · obtain hno | ⟨st, d, hst, hyes⟩ := exec_mayAnswer (encode_cw_of_decode hi).1 h
      · simp [hno] at hr
      · obtain ⟨rfl, -⟩ := List.cons.inj (hr.symm.trans hyes)
        cases hst with
        | unconstructed hneed => simpa [Status.code, hi, NeedsInstance] using hneed
        | ok | seedNegative | constructNegative | unsupported | tooLong => simp [Status.code, hi]
    · obtain ⟨rfl, -⟩ := List.cons.inj hr
      simp [Status.code, he]

/-! ### The supported versions (R65, R66) -/

/-- Settles O9: the 256 identifiers by enumeration; CONSTRUCT of one that is not listed stops at its first check. -/
theorem supportedVersionsAreTheTen : Obligations.SupportedVersionsAreTheTen := by
  have hten : ∀ ver : BitVec 8, supported ver = true ↔ ver ∈ versionNames.map (·.2) := by decide
  refine ⟨hten, by decide, rfl, rfl, rfl, rfl, rfl, rfl, rfl, rfl, rfl, rfl, rfl, rfl, fun ver arg s hver => ?_⟩
  rw [← hten, Bool.not_eq_true] at hver
  exact execConstruct_unsupported hver arg s

/-! ### Seeds and assembler lines (R62, R72, R73) -/

/-- The signed value of an operand, from its low 63 bits and its top bit (R62). -/
theorem seedValue_eq (arg : Arg) :
    seedValue arg = ((arg.toNat % 2 ^ 63 : Nat) : Int) - 2 ^ 63 * ((arg.toNat / 2 ^ 63 : Nat) : Int) := by
  have := arg.isLt
  rw [seedValue, BitVec.toInt_eq_toNat_cond]
  split <;> omega

/-- Settles O8: two's complement reads back what it wrote, and the top bit alone decides the sign. -/
theorem seedOperandIsSigned : Obligations.SeedOperandIsSigned := by
  refine ⟨fun x hlo hhi => BitVec.toInt_ofInt_eq_self (by decide) hlo hhi, fun arg => ?_, seedValue_eq⟩
  rw [seedNegative_iff, seedValue_eq]
  omega

/-- Settles O7: every line by evaluation, `CONSTRUCT ver` for any version by its expansion. -/
theorem assemblerLinesEncode : Obligations.AssemblerLinesEncode :=
  ⟨rfl, rfl, rfl, rfl, rfl, fun _ => rfl, rfl, rfl, rfl, rfl, rfl, rfl, rfl⟩

end Sys2Proof.Machine
end

section
/-! PROOFS of 40_seed_raw.md. SEED and `seed_all` (R80 to R85, R93), NEXT_RAW and the raw generators (R86 to R95), their
ranges and periods (R96, R97, R100), and replay (R98). -/

namespace Sys2Proof.Machine

/-! ### Outputs as numbers and seeds (R82, R84, R88) -/

theorem toNat_ofNat_mod_two_pow {bits : Nat} (hb : bits ≤ 32) (n : Nat) :
    (BitVec.ofNat 32 (n % 2 ^ bits)).toNat = n % 2 ^ bits := by
  rw [BitVec.toNat_ofNat, Nat.mod_eq_of_lt]
  exact (Nat.mod_lt _ (Nat.two_pow_pos _)).trans_le (Nat.pow_le_pow_right (by decide) hb)

theorem toNat_seedLow (v : Version) (arg : Arg) : (seedLow v arg).toNat = arg.toNat % 2 ^ v.bits :=
  toNat_ofNat_mod_two_pow v.bits_le _

theorem toNat_lcgStep (ac : Nat × Nat) {bits : Nat} (hb : bits ≤ 32) (x : Word) :
    (lcgStep ac bits x).toNat = (ac.2 + ac.1 * x.toNat) % 2 ^ bits :=
  toNat_ofNat_mod_two_pow hb _

/-- The LCG step in the order of R88. -/
theorem lcgStep_eq (A C bits : Nat) (x : Word) :
    lcgStep (A, C) bits x = BitVec.ofNat 32 ((A * x.toNat + C) % 2 ^ bits) := by
  rw [lcgStep, Nat.add_comm]

theorem seedAll_unwrapped {v : Version} (h : v.wrapped = false) (x : Word) (s : State) :
    seedAll v x s = seedRaw v.raw x s := by
  simp [seedAll, h]

/-- SEED on an unwrapped version seeds the raw state alone (R80, R83). -/
theorem execSeed_unwrapped {arg : Arg} {s : State} {v : Version} (hc : s.configured = true)
    (hv : versionOf s.ver = some v) (hw : v.wrapped = false) (h : arg.toNat < 2 ^ 63) :
    execSeed arg s = .next ((seedRaw v.raw (seedLow v arg) s).issue ⟨.ok, 0⟩) := by
  rw [execSeed_ok hc hv h, seedAll_unwrapped hw]

/-- Settles O15: the guard, then the test on the sign bit, then the seeding that no seed stops. -/
theorem seedErrorsChangeNothing : Obligations.SeedErrorsChangeNothing := by
  refine ⟨fun s arg hc => withVersion_unconfigured hc _, fun s arg v hc hv => ?_⟩
  have hexec : exec (.seed arg) s =
      if seedNegative arg then raise .invalidSeed s else respond .ok 0 (seedAll v (seedLow v arg) s) :=
    withVersion_some hc hv _
  rw [hexec]
  exact ⟨fun hneg => if_pos hneg,
    fun hpos => ⟨_, if_neg (Bool.eq_false_iff.mp hpos), congrArg (_ :: ·) (seedAll_responses v _ s)⟩⟩

/-- Settles O20: the operand reaches `seed_all` through its low BITS bits alone. -/
theorem seedTruncatesToWidth : Obligations.SeedTruncatesToWidth := by
  have hlow {v : Version} {arg arg' : Arg} (h : arg.toNat % 2 ^ v.bits = arg'.toNat % 2 ^ v.bits) :
      seedLow v arg = seedLow v arg' := congrArg (BitVec.ofNat 32) h
  refine ⟨fun s arg arg' v hc hv ha ha' h => ⟨?_, _, execSeed_ok hc hv ha, rfl⟩, fun s ver arg arg' v hv ha ha' h => ?_⟩
  · exact (execSeed_ok hc hv ha).trans (hlow h ▸ (execSeed_ok hc hv ha').symm)
  · exact (execConstruct_ok hv ha s).trans (hlow h ▸ (execConstruct_ok hv ha' s).symm)

/-! ### The LCG versions (R84, R88, R89) -/

/-- The algorithm is an LCG with the multiplier `A` and the increment `C` (R89). -/
def IsLcgPair (c : Config) (a : RawAlg) (A C : Nat) : Prop :=
  a = .lcg16 ∧ A = c.lcg16A.toNat ∧ C = c.lcg16C.toNat ∨
    a = .lcg26 ∧ A = c.lcg26A.toNat ∧ C = c.lcg26C.toNat ∨
    a = .lcg32 ∧ A = 121525 ∧ C = 386076519

theorem IsLcgPair.nextRaw_eq {a : RawAlg} {s : State} {A C : Nat} (h : IsLcgPair s.config a A C) :
    nextRaw a s = nextLcg (A, C) a.bits s := by
  obtain ⟨rfl, rfl, rfl⟩ | ⟨rfl, rfl, rfl⟩ | ⟨rfl, rfl, rfl⟩ := h <;> rfl

theorem IsLcgPair.seedRaw_eq {c : Config} {a : RawAlg} {A C : Nat} (h : IsLcgPair c a A C) (x : Word) (s : State) :
    seedRaw a x s = s.setS0 x := by
  obtain ⟨rfl, -⟩ | ⟨rfl, -⟩ | ⟨rfl, -⟩ := h <;> rfl

/-- Settles O16: the seed is the state, and the first output its successor. -/
theorem seedLcgLoadsSeed : Obligations.SeedLcgLoadsSeed := by
  intro s arg v hc hv hw ha A C (hp : IsLcgPair s.config v.raw A C)
  let t := (s.setS0 (seedLow v arg)).issue ⟨.ok, 0⟩
  have ht : IsLcgPair t.config v.raw A C := hp
  refine ⟨t, (execSeed_unwrapped hc hv hw ha).trans (by rw [hp.seedRaw_eq]), rfl, ?_⟩
  rw [ht.nextRaw_eq]
  show (lcgStep (A, C) v.bits (seedLow v arg)).toNat = _
  rw [toNat_lcgStep _ v.bits_le, toNat_seedLow, Nat.add_comm]

/-- Settles O21: the step of the pair, its output the new state. -/
theorem nextRawStepsLcg : Obligations.NextRawStepsLcg := by
  refine ⟨fun s v A C hc hv (hp : IsLcgPair s.config v.raw A C) => ?_, by decide, by decide⟩
  have hraw : nextRaw v.raw s = _ := hp.nextRaw_eq
  have hdata : (lcgStep (A, C) v.bits s.s0).setWidth 64 = BitVec.ofNat 64 ((A * s.s0.toNat + C) % 2 ^ v.bits) := by
    rw [← BitVec.ofNat_toNat, toNat_lcgStep _ v.bits_le, Nat.add_comm]
  rw [← hdata, ← lcgStep_eq]
  exact ⟨hraw, (execNextRaw_ok hc hv).trans (by rw [hraw]; rfl)⟩

/-! ### The xorshift32 versions (R91, R93) -/

/-- Settles O17: the replacement looks at the truncated seed, which is 0 for every multiple of 2^32. -/
theorem seedXs32ReplacesZero : Obligations.SeedXs32ReplacesZero := by
  refine ⟨fun s x => rfl, fun s arg v hc hv hw hraw ha => ?_, fun s arg v hc hv hraw ha hzero => ?_⟩
  · have hbits : v.bits = 32 := congrArg RawAlg.bits hraw
    have hlow : seedLow v arg = 0 ↔ arg.toNat % 2 ^ 32 = 0 := by
      rw [← BitVec.toNat_inj, toNat_seedLow, hbits]; rfl
    refine ⟨_, execSeed_unwrapped hc hv hw ha, ?_⟩
    rw [hraw]
    show (s.setS0 (if seedLow v arg = 0 then 1 else seedLow v arg)).issue ⟨.ok, 0⟩ = _
    simp only [hlow]
    rw [seedLow, hbits]
    rfl
  · have hbits : v.bits = 32 := congrArg RawAlg.bits hraw
    have hsame : seedRaw v.raw (seedLow v arg) s = seedRaw v.raw (seedLow v 1) s := by
      simp only [seedLow, hbits, hzero, hraw]
      rfl
    have hall : seedAll v (seedLow v arg) s = seedAll v (seedLow v 1) s := by simp only [seedAll, hsame]
    exact (execSeed_ok hc hv ha).trans (hall ▸ (execSeed_ok hc hv (by decide)).symm)

/-- Settles O22: the shifts of R91 are the step's own. -/
theorem nextRawStepsXs32 : Obligations.NextRawStepsXs32 := by
  refine ⟨fun s v hc hv hraw => ?_, rfl, by decide⟩
  have hnext : nextRaw v.raw s = nextXs32 s := by rw [hraw]; rfl
  refine ⟨hnext, (execNextRaw_ok hc hv).trans ?_⟩
  rw [hnext, ← BitVec.ofNat_toNat]
  rfl

/-! ### The xorshift128 versions (R85, R94, R95) -/

/-- The four state words together. -/
abbrev Quad := Word × Word × Word × Word

def State.quad (s : State) : Quad := (s.s0, s.s1, s.s2, s.s3)

def State.setQuad (s : State) (q : Quad) : State := s.setWords q.1 q.2.1 q.2.2.1 q.2.2.2

/-- The map of R94 on the four words. -/
def xs128Next (q : Quad) : Quad := (q.2.1, q.2.2.1, q.2.2.2, xs128Word q.1 q.2.2.2)

/-- The four iterates of the 32-bit LCG that seeding starts from (R85). -/
def xs128Start (x : Word) : Quad :=
  let L := lcgStep lcg32Pair 32
  (L x, L (L x), L (L (L x)), L (L (L (L x))))

theorem nextRaw_xs128 (s : State) : nextRaw .xs128 s = ((xs128Next s.quad).2.2.2, s.setQuad (xs128Next s.quad)) := rfl

@[simp] theorem State.quad_setQuad (s : State) (q : Quad) : (s.setQuad q).quad = q := rfl

@[simp] theorem State.setQuad_setQuad (s : State) (p q : Quad) : (s.setQuad p).setQuad q = s.setQuad q := rfl

/-- Raw outputs of xorshift128 are the newest words along the iterates of its map. -/
theorem rawOutputs_xs128 (k : Nat) (s : State) :
    rawOutputs .xs128 k s =
      ((List.range k).map fun i => (xs128Next^[i] (xs128Next s.quad)).2.2.2, s.setQuad (xs128Next^[k] s.quad)) := by
  induction k generalizing s with
  | zero => rfl
  | succ k ih =>
    rw [rawOutputs, ih, nextRaw_xs128, List.range_succ_eq_map]
    simp [Function.comp_def]

theorem seedXs128_eq (x : Word) (s : State) : seedXs128 x s = s.setQuad (xs128Next^[6] (xs128Start x)) :=
  congrArg Prod.snd (rawOutputs_xs128 6 (s.setQuad (xs128Start x)))

/-- The recurrence that seeds xorshift128, in the order of R88. -/
theorem lcgStep_lcg32Pair : lcgStep lcg32Pair 32 = fun x => BitVec.ofNat 32 ((121525 * x.toNat + 386076519) % 2 ^ 32) :=
  funext fun x => lcgStep_eq 121525 386076519 32 x

theorem xs128Next_iterate_six (q : Quad) :
    xs128Next^[6] q = xs128Next (xs128Next (xs128Next (xs128Next (xs128Next (xs128Next q))))) := rfl

/-- SEED on an unwrapped xorshift128 version, on the four words together (R85). -/
theorem execSeed_xs128 {arg : Arg} {s : State} {v : Version} (hc : s.configured = true)
    (hv : versionOf s.ver = some v) (hw : v.wrapped = false) (hraw : v.raw = .xs128) (ha : arg.toNat < 2 ^ 63) :
    exec (.seed arg) s =
      .next ((s.setQuad (xs128Next^[6] (xs128Start (BitVec.ofNat 32 (arg.toNat % 2 ^ 32))))).issue ⟨.ok, 0⟩) := by
  have hbits : v.bits = 32 := congrArg RawAlg.bits hraw
  refine (execSeed_unwrapped hc hv hw ha).trans ?_
  rw [hraw, seedRaw, seedXs128_eq, seedLow, hbits]

/-- Settles O18: the four iterates, and six steps of the map. -/
theorem seedXs128IteratesAndWarmsUp : Obligations.SeedXs128IteratesAndWarmsUp := by
  refine ⟨fun s arg v hc hv hw hraw ha => ?_, fun s => ?_⟩
  · rw [← lcgStep_lcg32Pair, execSeed_xs128 hc hv hw hraw ha, xs128Next_iterate_six]
    rfl
  · show (seedXs128 42 s).quad = _
    rw [seedXs128_eq, State.quad_setQuad]
    decide

/-- Settles O23: the map of R94, its output the newest word. -/
theorem nextRawStepsXs128 : Obligations.NextRawStepsXs128 := by
  refine ⟨fun s v hc hv hraw => ?_, by decide⟩
  have hnext : nextRaw v.raw s = nextXs128 s := by rw [hraw]; rfl
  refine ⟨hnext, (execNextRaw_ok hc hv).trans ?_⟩
  rw [hnext, ← BitVec.ofNat_toNat]
  rfl

/-- Settles O24: ten steps of the map from the seeded words, which no other part of the state enters. -/
theorem sourceExampleOutputs : Obligations.SourceExampleOutputs := by
  intro s
  rw [rawOutputs_xs128, seedXs128_eq, State.quad_setQuad]
  dsimp only
  decide

/-! ### The map of xorshift128 is linear and invertible (R95) -/

theorem xs128Word_xor (x y w z : Word) : xs128Word (x ^^^ y) (w ^^^ z) = xs128Word x w ^^^ xs128Word y z := by
  simp only [xs128Word]
  rw [Xs32.shl_xor, Xs32.shr_xor, BitVec.ushiftRight_xor_distrib]
  ac_rfl

/-- Words equal in the newest place and in the output are equal in the oldest (R95 (a)). -/
theorem xs128Next_injective : Function.Injective xs128Next := by
  rintro ⟨p0, p1, p2, p3⟩ ⟨q0, q1, q2, q3⟩ h
  obtain ⟨h1, h2, h3, hnew⟩ : p1 = q1 ∧ p2 = q2 ∧ p3 = q3 ∧ xs128Word p0 p3 = xs128Word q0 q3 := by
    simpa [xs128Next] using h
  have hzero : xs128Word (p0 ^^^ q0) 0 = 0 := by
    have := xs128Word_xor p0 q0 p3 q3
    rwa [hnew, h3, BitVec.xor_self, BitVec.xor_self] at this
  have h0 : p0 = q0 := BitVec.xor_eq_zero_iff.mp (eq_zero_of_xs128Word_eq_zero hzero)
  rw [h0, h1, h2, h3]

theorem xs128Next_zero : xs128Next (0, 0, 0, 0) = (0, 0, 0, 0) := by decide

theorem rawOk_xs128_iff (s : State) : RawOk .xs128 s ↔ s.quad ≠ (0, 0, 0, 0) := by
  have hlt : s.s0.toNat < 2 ^ RawAlg.xs128.bits := s.s0.isLt
  simp [RawOk, State.quad, hlt]

/-- Two iterates of the 32-bit LCG are not both 0 (R85). -/
theorem xs128Start_ne_zero (x : Word) : xs128Start x ≠ (0, 0, 0, 0) := by
  intro h
  obtain ⟨h0, h1, -⟩ : lcgStep lcg32Pair 32 x = 0 ∧ lcgStep lcg32Pair 32 (lcgStep lcg32Pair 32 x) = 0 ∧ _ := by
    simpa only [xs128Start, Prod.mk.injEq] using h
  rw [h0] at h1
  exact absurd h1 (by decide)

/-- Seeding never leaves the zero state, whatever the parameters (R95 (a)). -/
theorem rawOk_seedXs128 (x : Word) (s : State) : RawOk .xs128 (seedXs128 x s) := by
  rw [rawOk_xs128_iff, seedXs128_eq, State.quad_setQuad]
  intro h
  rw [← Function.iterate_fixed xs128Next_zero 6] at h
  exact xs128Start_ne_zero x (xs128Next_injective.iterate 6 h)

/-- Four outputs are the four words they leave behind (R95 (b)). -/
theorem rawOutputs_xs128_four (s : State) :
    (rawOutputs .xs128 4 s).1 =
      [(rawOutputs .xs128 4 s).2.s0, (rawOutputs .xs128 4 s).2.s1, (rawOutputs .xs128 4 s).2.s2,
        (rawOutputs .xs128 4 s).2.s3] := rfl

/-- Settles O28: additivity and injectivity of the map, which is finite; the last four of any run of outputs. -/
theorem xs128StepIsLinearAndInvertible : Obligations.Xs128StepIsLinearAndInvertible := by
  refine ⟨fun s => rfl, fun p q => ?_, Finite.injective_iff_bijective.mp xs128Next_injective, xs128Next_zero,
    fun q hq => xs128Next_injective (hq.trans xs128Next_zero.symm), rawOk_seedXs128, fun s k hk => ?_⟩
  · simp only [xs128Word_xor]
  · obtain ⟨m, rfl⟩ := Nat.exists_eq_add_of_le' hk
    simp only [rawOutputs_add, Nat.add_sub_cancel]
    rw [List.drop_left' (rawOutputs_length .xs128 m s)]
    exact rawOutputs_xs128_four _

/-! ### Ranges (R96) -/

/-- Settles O25: the ranges that the invariant keeps; the words 0, 1, 0, 0 give the output 0. -/
theorem rawOutputsStayInRange : Obligations.RawOutputsStayInRange :=
  ⟨fun _ _ hc h => ⟨nextRaw_outputOk hc h, nextRaw_rawOk hc h⟩, State.reset.setQuad (0, 1, 0, 0),
    (rawOk_xs128_iff _).mpr (by decide), by decide⟩

/-! ### Replay (R98) -/

/-- One raw output and the generator after it are a function of the generator (R87). -/
theorem SameGenerator.after_nextRaw {v : Version} {s t : State} (h : SameGenerator v s t) :
    (nextRaw v.raw s).1 = (nextRaw v.raw t).1 ∧ SameGenerator v (nextRaw v.raw s).2 (nextRaw v.raw t).2 := by
  obtain ⟨a, w⟩ := v
  obtain ⟨hc, h0, hrest, hwrap⟩ := h
  cases a with
  | lcg16 | lcg26 | lcg32 | xs32 =>
    refine ⟨?_, hc, ?_, nofun, hwrap⟩ <;> simp [nextRaw, nextLcg, nextXs32, hc, h0]
  | xs128 =>
    obtain ⟨h1, h2, h3⟩ := hrest rfl
    have hnew : xs128Word s.s0 s.s3 = xs128Word t.s0 t.s3 := by rw [h0, h3]
    exact ⟨hnew, hc, h1, fun _ => ⟨h2, h3, hnew⟩, hwrap⟩

theorem SameGenerator.after_rawOutputs {v : Version} {s t : State} (h : SameGenerator v s t) (k : Nat) :
    (rawOutputs v.raw k s).1 = (rawOutputs v.raw k t).1 ∧
      SameGenerator v (rawOutputs v.raw k s).2 (rawOutputs v.raw k t).2 := by
  induction k generalizing s t with
  | zero => exact ⟨rfl, h⟩
  | succ k ih =>
    obtain ⟨hout, hnext⟩ := h.after_nextRaw
    obtain ⟨houts, hlast⟩ := ih hnext
    exact ⟨congrArg₂ List.cons hout houts, hlast⟩

/-- Filling the table reads nothing but the raw generator (R112). -/
theorem SameGenerator.after_bdFill {a : RawAlg} {s t : State} (h : SameGenerator ⟨a, false⟩ s t) :
    SameGenerator ⟨a, true⟩ (bdFill a s) (bdFill a t) := by
  obtain ⟨houts, hlast⟩ := h.after_rawOutputs (2 ^ s.config.bdBits)
  have hfilled (l : List Word) : SameGenerator ⟨a, false⟩ ((rawOutputs a (2 ^ s.config.bdBits) s).2.setTab l)
      ((rawOutputs a (2 ^ s.config.bdBits) t).2.setTab l) := ⟨hlast.config, hlast.s0, hlast.rest, nofun⟩
  simp only [bdFill, ← h.config]
  rw [← houts]
  obtain ⟨hcur, hend⟩ := (hfilled (rawOutputs a (2 ^ s.config.bdBits) s).1).after_nextRaw
  exact ⟨hend.config, hend.s0, hend.rest, fun _ => ⟨by simp, hcur⟩⟩

theorem sameGenerator_seedRaw (a : RawAlg) (x : Word) {s t : State} (h : s.config = t.config) :
    SameGenerator ⟨a, false⟩ (seedRaw a x s) (seedRaw a x t) := by
  cases a with
  | lcg16 | lcg26 | lcg32 | xs32 => exact ⟨h, rfl, nofun, nofun⟩
  | xs128 => exact ⟨by simpa using h, by simp [seedRaw, seedXs128_eq, State.setQuad],
      fun _ => by simp [seedRaw, seedXs128_eq, State.setQuad], nofun⟩

/-- What `seed_all` sets up depends on the seed and the parameters alone (R83, R164). -/
theorem sameGenerator_seedAll (v : Version) (x : Word) {s t : State} (h : s.config = t.config) :
    SameGenerator v (seedAll v x s) (seedAll v x t) := by
  obtain ⟨a, w⟩ := v
  cases w with
  | false => exact sameGenerator_seedRaw a x h
  | true => exact (sameGenerator_seedRaw a x h).after_bdFill

theorem SameGenerator.after_getOutput {v : Version} {s t : State} (h : SameGenerator v s t) :
    (getOutput v s).1 = (getOutput v t).1 ∧ SameGenerator v (getOutput v s).2 (getOutput v t).2 := by
  cases hw : v.wrapped with
  | false =>
    rw [getOutput_unwrapped hw, getOutput_unwrapped hw]
    exact h.after_nextRaw
  | true =>
    obtain ⟨htab, hcur⟩ := h.wrap hw
    rw [getOutput_wrapped hw, getOutput_wrapped hw]
    simp only [getWrapped, ← h.config, ← htab, ← hcur]
    have hread (x : Word) : SameGenerator v (s.setCur x) (t.setCur x) := ⟨h.config, h.s0, h.rest, fun _ => ⟨htab, rfl⟩⟩
    obtain ⟨hout, hend⟩ := (hread (s.tab.getD (tabIndex s.config s.cur) 0)).after_nextRaw
    rw [hout]
    exact ⟨trivial, hend.config, hend.s0, hend.rest, fun _ => ⟨by simp [htab], by simp⟩⟩

theorem SameGenerator.replay_eq {v : Version} {s t : State} (h : SameGenerator v s t) (calls : List Bool) :
    replay v calls s = replay v calls t := by
  induction calls generalizing s t with
  | nil => rfl
  | cons call calls ih =>
    cases call with
    | true => exact congrArg₂ List.cons h.after_getOutput.1 (ih h.after_getOutput.2)
    | false => exact congrArg₂ List.cons h.after_nextRaw.1 (ih h.after_nextRaw.2)

/-- Settles O29: seeding leaves two generators that agree, and calls keep them so. -/
theorem replayAfterSeedingRepeats : Obligations.ReplayAfterSeedingRepeats :=
  fun v x _ _ calls h => (sameGenerator_seedAll v x h).replay_eq calls

/-! ### Cycles of known length (R97, R100) -/

/-- The orbit of a point has as many members as its period. -/
theorem card_orbit {α : Type} [DecidableEq α] (f : α → α) (x : α) :
    ((Finset.range (Function.minimalPeriod f x)).image (f^[·] x)).card = Function.minimalPeriod f x := by
  rw [Finset.card_image_of_injOn, Finset.card_range]
  simpa using Function.iterate_injOn_Iio_minimalPeriod

/-- A point runs through the set `S` on one cycle: it meets every member before it is back, which it is after exactly as
many steps as `S` has members. -/
def RunsThrough {α : Type} (f : α → α) (x : α) (S : Finset α) : Prop :=
  (∀ y ∈ S, ∃ k < S.card, f^[k] x = y) ∧ f^[S.card] x = x ∧ ∀ k, 0 < k → k < S.card → f^[k] x ≠ x

section
variable {α : Type} [DecidableEq α] {f : α → α} {x : α} {S : Finset α}

/-- An orbit that stays in a set as large as its period is that set. -/
theorem runsThrough_of_minimalPeriod (hS : ∀ k, f^[k] x ∈ S) (hperiod : Function.minimalPeriod f x = S.card) :
    RunsThrough f x S := by
  refine ⟨fun y hy => ?_, hperiod ▸ Function.iterate_minimalPeriod,
    fun k hpos hlt => Function.not_isPeriodicPt_of_pos_of_lt_minimalPeriod hpos.ne' (hperiod ▸ hlt)⟩
  have hsub : (Finset.range (Function.minimalPeriod f x)).image (f^[·] x) ⊆ S :=
    Finset.image_subset_iff.mpr fun k _ => hS k
  rw [← Finset.eq_of_subset_of_card_le hsub (by rw [card_orbit, hperiod])] at hy
  simpa [hperiod] using hy

/-- An orbit that stays in a set and meets all of it has the set's size as its period. -/
theorem runsThrough_of_reaches (hS : ∀ k, f^[k] x ∈ S) (hreach : ∀ y ∈ S, ∃ k, f^[k] x = y)
    (hback : x ∈ Function.periodicPts f) : RunsThrough f x S := by
  refine runsThrough_of_minimalPeriod hS ?_
  have horbit : (Finset.range (Function.minimalPeriod f x)).image (f^[·] x) = S := by
    refine (Finset.image_subset_iff.mpr fun k _ => hS k).antisymm fun y hy => ?_
    obtain ⟨k, rfl⟩ := hreach y hy
    exact Finset.mem_image.mpr ⟨k % Function.minimalPeriod f x,
      Finset.mem_range.mpr (Nat.mod_lt _ (Function.minimalPeriod_pos_of_mem_periodicPts hback)),
      Function.iterate_mod_minimalPeriod_eq⟩
  rw [← horbit, card_orbit]

end

/-- The words whose numbers lie in `lo .. hi - 1`. -/
def wordsBetween (lo hi : Nat) : Finset Word := (Finset.Ico lo hi).image (BitVec.ofNat 32)

theorem mem_wordsBetween {lo hi : Nat} (hhi : hi ≤ 2 ^ 32) {x : Word} :
    x ∈ wordsBetween lo hi ↔ lo ≤ x.toNat ∧ x.toNat < hi := by
  constructor
  · intro h
    obtain ⟨n, hn, rfl⟩ := Finset.mem_image.mp h
    rw [BitVec.toNat_ofNat, Nat.mod_eq_of_lt ((Finset.mem_Ico.mp hn).2.trans_le hhi)]
    exact Finset.mem_Ico.mp hn
  · intro h
    exact Finset.mem_image.mpr ⟨x.toNat, Finset.mem_Ico.mpr h, by simp⟩

theorem card_wordsBetween {lo hi : Nat} (hhi : hi ≤ 2 ^ 32) : (wordsBetween lo hi).card = hi - lo := by
  rw [wordsBetween, Finset.card_image_of_injOn, Nat.card_Ico]
  intro m hm n hn h
  have hm := (Finset.mem_Ico.mp hm).2.trans_le hhi
  have hn := (Finset.mem_Ico.mp hn).2.trans_le hhi
  have h := congrArg BitVec.toNat h
  rwa [BitVec.toNat_ofNat, BitVec.toNat_ofNat, Nat.mod_eq_of_lt hm, Nat.mod_eq_of_lt hn] at h

/-! ### The period of the LCG (R97) -/

/-- The LCG step before it is narrowed. -/
def affine (ac : Nat × Nat) (x : Nat) : Nat := ac.2 + ac.1 * x

theorem affine_iterate_add (ac : Nat × Nat) (k x y : Nat) :
    (affine ac)^[k] (x + y) = (affine ac)^[k] x + ac.1 ^ k * y := by
  induction k generalizing x y with
  | zero => simp
  | succ k ih =>
    rw [Function.iterate_succ_apply, Function.iterate_succ_apply, affine, Nat.mul_add, ← Nat.add_assoc, ih, affine]
    ring

/-- `2^n` steps move a number by an odd multiple of `2^n`: doubling the steps multiplies the move by `1 + A^(2^n)`, which is
2 modulo 4 (the Hull-Dobell conditions of R97). -/
theorem affine_iterate_two_pow {ac : Nat × Nat} (ha : ac.1 % 4 = 1) (hc : ac.2 % 2 = 1) (n x : Nat) :
    ∃ d, d % 2 = 1 ∧ (affine ac)^[2 ^ n] x = x + 2 ^ n * d := by
  induction n generalizing x with
  | zero =>
    refine ⟨ac.2 + 4 * (ac.1 / 4 * x), by omega, ?_⟩
    have ha' : ac.1 = 4 * (ac.1 / 4) + 1 := by omega
    simp only [pow_zero, Function.iterate_one, affine]
    conv_lhs => rw [ha']
    ring
  | succ n ih =>
    obtain ⟨d, hd, hmove⟩ := ih x
    have hpow : ac.1 ^ 2 ^ n % 4 = 1 := by simp [Nat.pow_mod, ha]
    obtain ⟨e, he⟩ : ∃ e, ac.1 ^ 2 ^ n = 4 * e + 1 := ⟨ac.1 ^ 2 ^ n / 4, by omega⟩
    refine ⟨d * (2 * e + 1), Nat.odd_iff.mp ((Nat.odd_iff.mpr hd).mul (odd_two_mul_add_one e)), ?_⟩
    calc (affine ac)^[2 ^ (n + 1)] x
        = (affine ac)^[2 ^ n] ((affine ac)^[2 ^ n] x) := by rw [← Function.iterate_add_apply, pow_succ, Nat.mul_two]
      _ = x + 2 ^ n * d + (4 * e + 1) * (2 ^ n * d) := by rw [hmove, affine_iterate_add, hmove, he]
      _ = x + 2 ^ (n + 1) * (d * (2 * e + 1)) := by ring

/-- The narrowed recurrence is the exact one, narrowed once (R88, R90). -/
theorem toNat_lcgStep_iterate (ac : Nat × Nat) {bits : Nat} (hb : bits ≤ 32) {x : Word} (hx : x.toNat < 2 ^ bits)
    (k : Nat) : ((lcgStep ac bits)^[k] x).toNat = (affine ac)^[k] x.toNat % 2 ^ bits := by
  induction k with
  | zero => exact (Nat.mod_eq_of_lt hx).symm
  | succ k ih =>
    rw [Function.iterate_succ_apply', toNat_lcgStep ac hb, ih, Function.iterate_succ_apply', affine]
    simp [Nat.add_mod, Nat.mul_mod]

theorem minimalPeriod_lcgStep {ac : Nat × Nat} (ha : ac.1 % 4 = 1) (hc : ac.2 % 2 = 1) {n : Nat} (hb : n + 1 ≤ 32)
    {x : Word} (hx : x.toNat < 2 ^ (n + 1)) : Function.minimalPeriod (lcgStep ac (n + 1)) x = 2 ^ (n + 1) := by
  refine Function.minimalPeriod_eq_prime_pow (p := 2) (fun hhalf => ?_) (BitVec.eq_of_toNat_eq ?_)
  · obtain ⟨d, hd, hmove⟩ := affine_iterate_two_pow ha hc n x.toNat
    have h : x.toNat + 2 ^ n * d ≡ x.toNat + 0 [MOD 2 ^ (n + 1)] := by
      have h := congrArg BitVec.toNat hhalf
      rw [toNat_lcgStep_iterate ac hb hx, hmove] at h
      rw [Nat.ModEq, h, Nat.add_zero, Nat.mod_eq_of_lt hx]
    have hdvd : 2 ^ n * 2 ∣ 2 ^ n * d := Nat.modEq_zero_iff_dvd.mp (Nat.ModEq.add_left_cancel' _ h)
    have := Nat.dvd_of_mul_dvd_mul_left (Nat.two_pow_pos n) hdvd
    omega
  · obtain ⟨d, -, hmove⟩ := affine_iterate_two_pow ha hc (n + 1) x.toNat
    rw [toNat_lcgStep_iterate ac hb hx, hmove, Nat.add_mul_mod_self_left, Nat.mod_eq_of_lt hx]

theorem lcgStep_runsThrough {ac : Nat × Nat} (ha : ac.1 % 4 = 1) (hc : ac.2 % 2 = 1) {n : Nat} (hb : n + 1 ≤ 32)
    {x : Word} (hx : x.toNat < 2 ^ (n + 1)) :
    RunsThrough (lcgStep ac (n + 1)) x (wordsBetween 0 (2 ^ (n + 1))) := by
  have hle : 2 ^ (n + 1) ≤ 2 ^ 32 := Nat.pow_le_pow_right (by decide) hb
  refine runsThrough_of_minimalPeriod (fun k => (mem_wordsBetween hle).mpr ⟨Nat.zero_le _, ?_⟩) ?_
  · rw [toNat_lcgStep_iterate ac hb hx]
    exact Nat.mod_lt _ (Nat.two_pow_pos _)
  · rw [minimalPeriod_lcgStep ha hc hb hx, card_wordsBetween hle, Nat.sub_zero]

/-- The first half of R97: the pair lies within its width and meets the conditions for a full period. -/
theorem lcgPair_admissible {c : Config} (hc : c.Ok) {ac : Nat × Nat} {bits : Nat}
    (h : ac = lcg16Pair c ∧ bits = 16 ∨ ac = lcg26Pair c ∧ bits = 26 ∨ ac = (121525, 386076519) ∧ bits = 32) :
    1 ≤ ac.1 ∧ ac.1 < 2 ^ bits ∧ ac.2 < 2 ^ bits ∧ ac.2 % 2 = 1 ∧ ac.1 % 4 = 1 := by
  have hpos {n : Nat} (h : n % 4 = 1) : 1 ≤ n := by omega
  obtain ⟨rfl, rfl⟩ | ⟨rfl, rfl⟩ | ⟨rfl, rfl⟩ := h
  · exact ⟨hpos hc.lcg16.1, c.lcg16A.isLt, c.lcg16C.isLt, hc.lcg16.2, hc.lcg16.1⟩
  · exact ⟨hpos hc.lcg26.1, c.lcg26A.isLt, c.lcg26C.isLt, hc.lcg26.2, hc.lcg26.1⟩
  · decide

/-- Settles O26: the pair meets the conditions, and so its period is the number of values. -/
theorem lcgHasFullPeriod : Obligations.LcgHasFullPeriod := by
  intro c hc ac bits h
  obtain ⟨hlo, hA, hC, hodd, hone⟩ := lcgPair_admissible hc h
  refine ⟨⟨hlo, hA, hC, hodd, hone⟩, fun x hx => ?_⟩
  obtain ⟨n, rfl, hn⟩ : ∃ n, bits = n + 1 ∧ n + 1 ≤ 32 := ⟨bits - 1, by omega, by omega⟩
  have hle : 2 ^ (n + 1) ≤ 2 ^ 32 := Nat.pow_le_pow_right (by decide) hn
  obtain ⟨hall, hback, hnot⟩ := lcgStep_runsThrough hone hodd hn hx
  rw [card_wordsBetween hle, Nat.sub_zero] at hall hback hnot
  exact ⟨fun y hy => hall y ((mem_wordsBetween hle).mpr ⟨Nat.zero_le _, hy⟩), hback, hnot⟩

/-! ### The cycle of xorshift32 (R91, R100) -/

theorem eq_zero_of_xor_shiftLeft {x : Word} {k : Nat} (hk : 1 ≤ k) (h : x ^^^ x <<< k = 0) : x = 0 := by
  have hfix : x = x <<< k := BitVec.xor_eq_zero_iff.mp h
  have hbit (i : Nat) : x.getLsbD i = false := by
    induction i using Nat.strong_induction_on with
    | h i ih =>
      rw [hfix, BitVec.getLsbD_shiftLeft]
      by_cases hik : i < k
      · simp [hik]
      · simp [ih (i - k) (by omega)]
  exact BitVec.eq_of_getLsbD_eq fun i _ => by simp [hbit i]

theorem eq_zero_of_xor_ushiftRight {x : Word} {k : Nat} (hk : 1 ≤ k) (h : x ^^^ x >>> k = 0) : x = 0 := by
  have hfix : x.toNat = x.toNat / 2 ^ k := by
    rw [← Nat.shiftRight_eq_div_pow, ← BitVec.toNat_ushiftRight, ← BitVec.xor_eq_zero_iff.mp h]
  by_contra hx
  have hpos : 0 < x.toNat := Nat.pos_of_ne_zero fun h0 => hx (BitVec.eq_of_toNat_eq h0)
  exact (Nat.div_lt_self hpos (Nat.one_lt_two_pow (by omega))).ne hfix.symm

/-- Each of the three shift-and-xor steps takes 0 alone to 0, and so does the whole (R91). -/
theorem eq_zero_of_xs32Step {sh : Xs32Shift} (ha : 1 ≤ sh.a) (hb : 1 ≤ sh.b) (hc : 1 ≤ sh.c) {x : Word}
    (h : xs32Step sh x = 0) : x = 0 :=
  eq_zero_of_xor_shiftLeft ha (eq_zero_of_xor_ushiftRight hb (eq_zero_of_xor_shiftLeft hc h))

theorem xs32Step_injective {sh : Xs32Shift} (ha : 1 ≤ sh.a) (hb : 1 ≤ sh.b) (hc : 1 ≤ sh.c) :
    Function.Injective (xs32Step sh) := by
  intro x y h
  have hzero : xs32Step sh (x ^^^ y) = 0 := by simp [Xs32.xs32Step_xor, h]
  exact BitVec.xor_eq_zero_iff.mp (eq_zero_of_xs32Step ha hb hc hzero)

theorem mem_wordsBetween_one {x : Word} : x ∈ wordsBetween 1 (2 ^ 32) ↔ x ≠ 0 := by
  rw [mem_wordsBetween le_rfl, and_iff_left x.isLt, Nat.one_le_iff_ne_zero]
  exact not_congr (BitVec.toNat_inj (y := 0))

/-- An admissible triple runs from any word but 0 through all of them (R100). -/
theorem xs32Step_runsThrough {sh : Xs32Shift} (h : sh.OneCycle) {x : Word} (hx : x ≠ 0) :
    RunsThrough (xs32Step sh) x (wordsBetween 1 (2 ^ 32)) := by
  have hcycle := h.2
  refine runsThrough_of_reaches (fun k => mem_wordsBetween_one.mpr ?_)
    (fun y hy => hcycle x y hx (mem_wordsBetween_one.mp hy)) ?_
  · induction k with
    | zero => exact hx
    | succ k ih =>
      rw [Function.iterate_succ_apply']
      exact xs32Step_ne_zero h ih
  · obtain ⟨k, hk⟩ := hcycle _ x (xs32Step_ne_zero h hx) hx
    exact Function.mk_mem_periodicPts k.succ_pos hk

/-- Settles O27: the step is additive and only 0 goes to 0; one cycle through the words but 0 is as long as they are many. -/
theorem xs32StepPermutesWords : Obligations.Xs32StepPermutesWords := by
  refine ⟨fun sh ha hb hc => ?_, fun c hc x hx => ?_⟩
  · have hinj := xs32Step_injective ha.1 hb.1 hc.1
    have hzero : xs32Step sh 0 = 0 := by simp [xs32Step]
    exact ⟨Finite.injective_iff_bijective.mp hinj, hzero, fun x hx h => hx (hinj (h.trans hzero.symm))⟩
  · obtain ⟨hall, hback, hnot⟩ := xs32Step_runsThrough hc.oneCycle hx
    rw [card_wordsBetween le_rfl] at hall hback hnot
    exact ⟨fun y hy => hall y (mem_wordsBetween_one.mpr hy), hback, hnot⟩

end Sys2Proof.Machine
end

section
/-! PROOFS of 41_decorrelation.md. How `seed_all` fills TAB and CUR of a wrapped version (R83, R112), GET with the wrapper
and without it (R113 to R115), and that a wrapped `get()` conserves the outputs held (R118). -/

namespace Sys2Proof.Machine

/-! ### next_raw neither reads nor writes TAB and CUR (R87, R116) -/

@[simp] theorem nextRaw_setTab (a : RawAlg) (s : State) (tab : List Word) :
    nextRaw a (s.setTab tab) = ((nextRaw a s).1, (nextRaw a s).2.setTab tab) := by cases a <;> rfl

@[simp] theorem nextRaw_setCur (a : RawAlg) (s : State) (x : Word) :
    nextRaw a (s.setCur x) = ((nextRaw a s).1, (nextRaw a s).2.setCur x) := by cases a <;> rfl

/-! ### The fill (R83, R112) -/

/-- The last of some raw outputs apart. -/
theorem rawOutputs_succ (a : RawAlg) (k : Nat) (s : State) :
    rawOutputs a (k + 1) s =
      ((rawOutputs a k s).1 ++ [(nextRaw a (rawOutputs a k s).2).1], (nextRaw a (rawOutputs a k s).2).2) :=
  rawOutputs_add a k 1 s

/-- The fill is one run of raw outputs, dealt out to TAB and CUR (R112). -/
theorem bdFill_eq (a : RawAlg) (s : State) :
    bdFill a s =
      ((rawOutputs a (2 ^ s.config.bdBits + 1) s).2.setTab
        ((rawOutputs a (2 ^ s.config.bdBits + 1) s).1.take (2 ^ s.config.bdBits))).setCur
          ((rawOutputs a (2 ^ s.config.bdBits + 1) s).1.getD (2 ^ s.config.bdBits) 0) := by
  simp [bdFill, rawOutputs_succ]

theorem seedAll_wrapped {v : Version} (h : v.wrapped = true) (x : Word) (s : State) :
    seedAll v x s = bdFill v.raw (seedRaw v.raw x s) := if_pos h

/-- Settles O19: the fill as one run of raw outputs; for the example five outputs of the seeded words. -/
theorem seedWrappedFillsTable : Obligations.SeedWrappedFillsTable := by
  refine ⟨fun s arg v hc hv hw ha => ?_, fun s hbits => ?_⟩
  · refine (execSeed_ok hc hv ha).trans ?_
    rw [seedAll_wrapped hw, bdFill_eq, seedRaw_config, seedLow]
    simp [State.issue, State.setTab, State.setCur]
  · rw [seedAll_wrapped rfl, bdFill_eq, seedRaw_config, hbits, seedRaw, seedXs128_eq, rawOutputs_xs128,
      State.quad_setQuad]
    simp only [State.setCur_tab, State.setTab_tab, State.setCur_cur]
    decide

/-! ### GET with the wrapper (R111, R113, R114) -/

/-- A wrapped `get()` on the state before it: the entry read and the one raw step do not meet (R114). -/
theorem getWrapped_eq (a : RawAlg) (s : State) :
    getWrapped a s =
      (s.cur, ((nextRaw a s).2.setCur (s.tab.getD (tabIndex s.config s.cur) 0)).setTab
        (s.tab.set (tabIndex s.config s.cur) (nextRaw a s).1)) := by
  simp [getWrapped]

/-- Settles O30: `get()` on the state before it; the invariant gives the table's length and the range of CUR. -/
theorem getWrappedUsesTable : Obligations.GetWrappedUsesTable := by
  intro s v hc hv hw
  refine ⟨(execGet_ok hc hv).trans ?_, fun hinv => ?_⟩
  · rw [getOutput_wrapped hw, getWrapped_eq, nextRaw_eq_setWords, ← BitVec.ofNat_toNat]
    rfl
  · obtain ⟨-, htab, -, hwrap⟩ := hinv.generatorOk hc hv
    obtain ⟨-, hcur, -⟩ := hwrap hw
    exact ⟨(tabIndex_lt s.config s.cur).trans_eq htab.symm, hcur⟩

/-! ### The outputs held (R118) -/

/-- Settles O32: the output is the old CUR, the new CUR the entry taken, and the fresh output fills its place. -/
theorem getConservesHeldOutputs : Obligations.GetConservesHeldOutputs := by
  intro s v hw htab
  have hi : tabIndex s.config s.cur < s.tab.length := htab ▸ tabIndex_lt _ _
  have htaken : (s.tab.getD (tabIndex s.config s.cur) 0 :: s.tab.set (tabIndex s.config s.cur) (nextRaw v.raw s).1).Perm
      ((nextRaw v.raw s).1 :: s.tab) := by
    simpa [hi] using s.tab.getD_set_perm_cons (tabIndex s.config s.cur) (nextRaw v.raw s).1
  rw [getOutput_wrapped hw, getWrapped_eq]
  exact (htaken.cons s.cur).trans (.swap ..)

/-! ### GET without the wrapper (R115) -/

/-- Settles O31: both commands draw one raw output, which other contents of TAB and CUR do not reach. -/
theorem getUnwrappedIsNextRaw : Obligations.GetUnwrappedIsNextRaw := by
  intro s v hc hv hw
  have hget {t : State} (hc : t.configured = true) (hv : versionOf t.ver = some v) :
      exec .get t = .next ((nextRaw v.raw t).2.issue ⟨.ok, (nextRaw v.raw t).1.setWidth 64⟩) :=
    (execGet_ok hc hv).trans (by rw [getOutput_unwrapped hw])
  refine ⟨(hget hc hv).trans (execNextRaw_ok hc hv).symm, _, hget hc hv, nextRaw_tab .., nextRaw_cur .., fun tab cur => ?_⟩
  refine (hget (t := (s.setTab tab).setCur cur) hc hv).trans ?_
  rw [nextRaw_setCur, nextRaw_setTab]
  rfl

end Sys2Proof.Machine
end

section
/-! PROOFS of 42_shuffle.md. The guard of SHUFFLE (R130, R131), the phases of its controller (R142), the swap (R136), and
whole runs of the controller as rounds, one position each: what they draw (R134, R135, R138, R139), where they take the
elements (R140), and that they are R130 (R130, R142). -/

namespace Sys2Proof.Machine

/-! ### The guard (R130, R131) -/

/-- N holds every admissible length whole (R28). -/
theorem toNat_setWidth_length {v : Version} {arg : Arg} (h : arg.toNat ≤ v.nstates) :
    (arg.setWidth 33).toNat = arg.toNat := by
  have := v.nstates_le
  rw [BitVec.toNat_setWidth, Nat.mod_eq_of_lt (by omega)]

/-- Settles O33: of the two branches behind the guard the first refuses the length and the second starts the controller. -/
theorem shuffleGuardsLengthAndStarts : Obligations.ShuffleGuardsLengthAndStarts := by
  intro s arg v hc hv
  refine ⟨fun h => ?_, fun h => ⟨_, execShuffle_ok hc hv h, toNat_setWidth_length h, rfl⟩⟩
  exact (withVersion_some hc hv _).trans (if_pos h)

/-! ### The step of each phase (R142) -/

/-- WIDTH: B and HI cover J (R133). -/
def State.widened (s : State) : State :=
  (if s.j = s.hi then s.setBHi (s.b + 1) (s.hi <<< 1) else s).setPhase .draw

section
variable {s : State} (hb : s.busy = true) (hh : HostHeldOff s.host)
include hb hh

theorem step_loop_end (hp : s.phase = .loop) (h : s.n.toNat ≤ s.j.toNat) : step s = .next (s.issue ⟨.ok, 0⟩) := by
  rw [step_heldOff hb hh, controllerStep, hp]
  exact if_pos h

theorem step_loop (hp : s.phase = .loop) (h : s.j.toNat < s.n.toNat) : step s = .next (s.setPhase .width) := by
  rw [step_heldOff hb hh, controllerStep, hp]
  exact if_neg (Nat.not_le.mpr h)

theorem step_width (hp : s.phase = .width) : step s = .next s.widened := by
  rw [step_heldOff hb hh, controllerStep, hp]
  rfl

theorem step_draw (hp : s.phase = .draw) {v : Version} (hc : s.configured = true) (hv : versionOf s.ver = some v) :
    step s = .next (((getOutput v s).2.setR (drawOf v.bits s.b.toNat (getOutput v s).1)).setPhase .test) := by
  rw [step_heldOff hb hh, controllerStep, hp]
  simp [phaseDraw, hc, hv]

theorem step_test_accept (hp : s.phase = .test) (h : s.r.toNat ≤ s.j.toNat) : step s = .next (s.setPhase .rdR) := by
  rw [step_heldOff hb hh, controllerStep, hp]
  simp [phaseTest, h]

theorem step_test_reject (hp : s.phase = .test) (h : s.j.toNat < s.r.toNat) : step s = .next (s.setPhase .draw) := by
  rw [step_heldOff hb hh, controllerStep, hp]
  simp [phaseTest, Nat.not_le.mpr h]

theorem step_rdR (hp : s.phase = .rdR) : step s = .next ((s.setT0 (s.memRead s.r.toNat)).setPhase .rdJ) := by
  rw [step_heldOff hb hh, controllerStep, hp]
  rfl

theorem step_rdJ (hp : s.phase = .rdJ) : step s = .next ((s.setT1 (s.memRead s.j.toNat)).setPhase .wrJ) := by
  rw [step_heldOff hb hh, controllerStep, hp]
  rfl

theorem step_wrJ (hp : s.phase = .wrJ) : step s = .next ((s.memWrite s.j.toNat s.t0).setPhase .wrR) := by
  rw [step_heldOff hb hh, controllerStep, hp]
  rfl

theorem step_wrR (hp : s.phase = .wrR) :
    step s = .next (((s.memWrite s.r.toNat s.t1).setJ (s.j + 1)).setPhase .loop) := by
  rw [step_heldOff hb hh, controllerStep, hp]
  rfl

end

/-- `get()` as one write of the state words, TAB and CUR (R21, R26, R27). -/
theorem getOutput_eq (v : Version) (s : State) :
    (getOutput v s).2 =
      ((s.setWords (getOutput v s).2.s0 (getOutput v s).2.s1 (getOutput v s).2.s2 (getOutput v s).2.s3).setTab
        (getOutput v s).2.tab).setCur (getOutput v s).2.cur := by
  cases hw : v.wrapped with
  | false =>
    rw [getOutput_unwrapped hw, nextRaw_eq_setWords]
    rfl
  | true =>
    rw [getOutput_wrapped hw, getWrapped_eq, nextRaw_eq_setWords]
    rfl

/-- A draw as a number (R134). -/
theorem drawOf_eq_ofNat (bits b : Nat) (o : Word) : drawOf bits b o = BitVec.ofNat 32 (o.toNat / 2 ^ (bits - b)) := by
  rw [← Nat.shiftRight_eq_div_pow, ← BitVec.toNat_ushiftRight, BitVec.ofNat_toNat, BitVec.setWidth_eq, drawOf]

/-- Settles O34: the step of each phase, on each side of its test. -/
theorem controllerFollowsPhaseTable : Obligations.ControllerFollowsPhaseTable := by
  intro s hb hh
  refine ⟨?_, ?_, fun hp h => ?_, fun hp h => ?_, fun hp v hc hv => ?_, ?_, ?_, ?_, ?_, ?_, ?_⟩
  · exact step_loop_end hb hh
  · exact step_loop hb hh
  · have hdouble : s.hi <<< 1 = 2 * s.hi := by bv_omega
    rw [step_width hb hh hp, State.widened, if_pos h, hdouble]
    rfl
  · rw [step_width hb hh hp, State.widened, if_neg h]
    rfl
  · rw [step_draw hb hh hp hc hv, getOutput_eq, drawOf_eq_ofNat]
    rfl
  · exact step_test_accept hb hh
  · exact step_test_reject hb hh
  · exact step_rdR hb hh
  · exact step_rdJ hb hh
  · exact step_wrJ hb hh
  · exact step_wrR hb hh

/-! ### Several steps -/

theorem runSteps_succ {s t : State} (h : step s = .next t) (k : Nat) : runSteps (k + 1) s = runSteps k t := by
  rw [runSteps, h]

theorem runSteps_one {s t : State} (h : step s = .next t) : runSteps 1 s = .next t := runSteps_succ h 0

theorem exists_step_of_runSteps_succ {s t : State} {k : Nat} (h : runSteps (k + 1) s = .next t) :
    ∃ u, step s = .next u ∧ runSteps k u = .next t := by
  rw [runSteps] at h
  split at h
  next u hstep => exact ⟨u, hstep, h⟩
  all_goals cases h

theorem runSteps_add {a : Nat} {s u : State} (h : runSteps a s = .next u) (k : Nat) :
    runSteps (a + k) s = runSteps k u := by
  induction a generalizing s with
  | zero =>
    cases h
    rw [Nat.zero_add]
  | succ a ih =>
    obtain ⟨t, hstep, h⟩ := exists_step_of_runSteps_succ h
    rw [Nat.succ_add, runSteps_succ hstep, ih h]

/-! ### The swap (R136) -/

/-- The four accesses of R136 as one update, and J at the next position. -/
def State.swapped (s : State) : State :=
  ((((s.setT0 (s.memRead s.r.toNat)).setT1 (s.memRead s.j.toNat)).setSeq (s.seq.swap s.r.toNat s.j.toNat)).setJ
    (s.j + 1)).setPhase .loop

section
variable {s : State} (hb : s.busy = true) (hh : HostHeldOff s.host) (hp : s.phase = .rdR)
include hb hh hp

theorem runSteps_rdR : runSteps 1 s = .next ((s.setT0 (s.memRead s.r.toNat)).setPhase .rdJ) :=
  runSteps_one (step_rdR hb hh hp)

theorem runSteps_rdJ : runSteps 2 s =
    .next (((s.setT0 (s.memRead s.r.toNat)).setT1 (s.memRead s.j.toNat)).setPhase .wrJ) :=
  (runSteps_add (runSteps_rdR hb hh hp) 1).trans (runSteps_one (step_rdJ hb hh rfl))

theorem runSteps_wrJ : runSteps 3 s =
    .next ((((s.setT0 (s.memRead s.r.toNat)).setT1 (s.memRead s.j.toNat)).memWrite s.j.toNat
      (s.memRead s.r.toNat)).setPhase .wrR) :=
  (runSteps_add (runSteps_rdJ hb hh hp) 1).trans (runSteps_one (step_wrJ hb hh rfl))

theorem runSteps_swap : runSteps 4 s = .next s.swapped := by
  have hwrR := (runSteps_add (runSteps_wrJ hb hh hp) 1).trans (runSteps_one (step_wrR hb hh rfl))
  exact hwrR.trans (by simp [State.swapped, State.memWrite, State.setSeq, State.setJ, State.setPhase, State.setT0,
    State.setT1, State.memRead, Memory.swap])

end

@[simp] theorem State.swapped_registers (s : State) : s.swapped.registers = s.registers := by
  simp [State.registers, State.swapped]

@[simp] theorem State.swapped_setPhase (s : State) (p : Phase) : (s.setPhase p).swapped = s.swapped := by
  simp [State.swapped, State.memRead, State.setPhase, State.setT0, State.setT1, State.setSeq, State.setJ]

@[simp] theorem State.swapped_seq (s : State) : s.swapped.seq = s.seq.swap s.r.toNat s.j.toNat := rfl

theorem State.memRead_swapped {s : State} (h : s.seq.wf) (i : Nat) :
    s.swapped.memRead i = s.memRead (Equiv.swap s.r.toNat s.j.toNat i) :=
  Memory.read_swap h _ _ i

/-- Settles O35: the four phases of the swap one after the other, and the reads of the memory after both writes. -/
theorem swapExchangesTwoElements : Obligations.SwapExchangesTwoElements := by
  intro s hwf hb hh hp
  refine ⟨?_, ?_, ?_, s.swapped, ?_, fun i => ?_, ?_⟩
  · exact runSteps_rdR hb hh hp
  · exact runSteps_rdJ hb hh hp
  · exact runSteps_wrJ hb hh hp
  · exact runSteps_swap hb hh hp
  · rw [State.memRead_swapped hwf, Equiv.swap_comm, Equiv.swap_apply_def]
    split_ifs <;> rfl
  · rw [State.swapped_seq, State.swapped]
    simp only [State.setSeq, State.setJ, State.setPhase, State.setT0, State.setT1]

/-! ### `get()` reads and writes the registers of the generator alone (R114, R115) -/

@[simp] theorem State.setR_registers (s : State) (x : Word) : (s.setR x).registers = s.registers := rfl

@[simp] theorem State.startShuffle_registers (s : State) (n : BitVec 33) :
    (s.startShuffle n).registers = s.registers := rfl

/-- The registers of the generator of `s` in the rest of `c`. -/
def State.withRest (s c : State) : State :=
  { c with
    config := s.config, configured := s.configured, ver := s.ver
    s0 := s.s0, s1 := s.s1, s2 := s.s2, s3 := s.s3, tab := s.tab, cur := s.cur }

theorem State.eq_withRest {s c : State} (h : s.registers = c.registers) : c = s.withRest c := by
  simp only [State.registers, Registers.mk.injEq, Prod.mk.injEq] at h
  simp [State.withRest, h]

section
variable (s c : State)

@[simp] theorem State.withRest_config : (s.withRest c).config = s.config := rfl
@[simp] theorem State.withRest_tab : (s.withRest c).tab = s.tab := rfl
@[simp] theorem State.withRest_cur : (s.withRest c).cur = s.cur := rfl
@[simp] theorem State.setTab_withRest (l : List Word) : (s.withRest c).setTab l = (s.setTab l).withRest c := rfl
@[simp] theorem State.setCur_withRest (x : Word) : (s.withRest c).setCur x = (s.setCur x).withRest c := rfl

@[simp] theorem nextRaw_withRest (a : RawAlg) :
    nextRaw a (s.withRest c) = ((nextRaw a s).1, (nextRaw a s).2.withRest c) := by cases a <;> rfl

theorem getOutput_withRest (v : Version) :
    getOutput v (s.withRest c) = ((getOutput v s).1, (getOutput v s).2.withRest c) := by
  unfold getOutput
  split <;> simp [getWrapped]

end

theorem getOutput_congr {s t : State} (h : s.registers = t.registers) (v : Version) :
    (getOutput v s).1 = (getOutput v t).1 ∧ (getOutput v s).2.registers = (getOutput v t).2.registers := by
  rw [State.eq_withRest h, getOutput_withRest]
  exact ⟨rfl, rfl⟩

theorem getOutputs_congr {s t : State} (h : s.registers = t.registers) (v : Version) (k : Nat) :
    (getOutputs v k s).2.registers = (getOutputs v k t).2.registers := by
  induction k generalizing s t with
  | zero => exact h
  | succ k ih => exact ih (getOutput_congr h v).2

/-- `get()` does not reach R. -/
theorem getOutput_setR (v : Version) (s : State) (x : Word) :
    getOutput v (s.setR x) = ((getOutput v s).1, (getOutput v s).2.setR x) := by
  have h : getOutput v (s.setR x) = _ := getOutput_withRest s (s.setR x) v
  rw [h]
  simp [State.withRest, State.setR]

/-- The last of some `get()` calls apart. -/
theorem getOutputs_succ (v : Version) (k : Nat) (s : State) :
    (getOutputs v (k + 1) s).2 = (getOutput v (getOutputs v k s).2).2 := by
  induction k generalizing s with
  | zero => rfl
  | succ k ih => exact ih (getOutput v s).2

/-! ### The draws (R134, R135) -/

/-- The draw of `b` bits that the output after `k` others gives (R134). -/
def drawWord (v : Version) (b : Nat) (s : State) (k : Nat) : Word :=
  drawOf v.bits b (getOutput v (getOutputs v k s).2).1

theorem drawWord_congr {s t : State} (h : s.registers = t.registers) (v : Version) (b k : Nat) :
    drawWord v b s k = drawWord v b t k := by
  rw [drawWord, (getOutput_congr (getOutputs_congr h v k) v).1, drawWord]

/-- The first draw of `b` bits that is at most `j` comes after `d` rejected ones (R135). -/
structure FirstAccepted (v : Version) (j b : Nat) (s : State) (d : Nat) : Prop where
  rejected : ∀ i < d, j < (drawWord v b s i).toNat
  accepted : (drawWord v b s d).toNat ≤ j

theorem FirstAccepted.congr {v : Version} {j b d : Nat} {s t : State} (h : FirstAccepted v j b s d)
    (hword : ∀ i, drawWord v b s i = drawWord v b t i) : FirstAccepted v j b t d :=
  ⟨fun i hi => hword i ▸ h.rejected i hi, hword d ▸ h.accepted⟩

theorem exists_firstAccepted {v : Version} {j b : Nat} {s : State} (h : ∃ k, (drawWord v b s k).toNat ≤ j) :
    ∃ d, FirstAccepted v j b s d :=
  ⟨Nat.find h, fun _ hi => Nat.not_le.mp (Nat.find_min h hi), Nat.find_spec h⟩

/-- The controller runs on an instance of version `v`, the host held off (R205). -/
structure Running (v : Version) (s : State) : Prop where
  busy : s.busy = true
  held : HostHeldOff s.host
  configured : s.configured = true
  version : versionOf s.ver = some v

theorem heldOff_of_nil {h : List HostMove} (hh : h = []) : HostHeldOff h := by
  simp [HostHeldOff, hh]

/-- After the draw that follows `d` others (R134). -/
def State.drawn (s : State) (v : Version) (d : Nat) : State :=
  (getOutputs v (d + 1) s).2.setR (drawWord v s.b.toNat s d)

theorem State.setPhase_setPhase_self {s : State} {p : Phase} (h : s.phase = p) (q : Phase) :
    (s.setPhase q).setPhase p = s := by
  subst h
  rfl

section
variable {v : Version} {s : State} (hs : Running v s) (hp : s.phase = .draw)
include hs hp

theorem step_drawn (d : Nat) (x : Word) :
    step ((getOutputs v d s).2.setR x) = .next ((s.drawn v d).setPhase .test) := by
  have hstep := step_draw (s := (getOutputs v d s).2.setR x) (v := v) (by simpa using hs.busy) (by simpa using hs.held)
    (by simpa using hp) (by simpa using hs.configured) (by simpa using hs.version)
  rw [hstep, getOutput_setR, State.drawn, getOutputs_succ, State.setR_b, getOutputs_b]
  rfl

/-- Rejected draws leave nothing behind but the generator's state and R (R135, R138). -/
theorem runSteps_rejected {d : Nat} (hrej : ∀ i < d, s.j.toNat < (drawWord v s.b.toNat s i).toNat) :
    ∃ x, runSteps (2 * d) s = .next ((getOutputs v d s).2.setR x) := by
  induction d with
  | zero => exact ⟨s.r, rfl⟩
  | succ d ih =>
    obtain ⟨x, hx⟩ := ih fun i hi => hrej i (by omega)
    refine ⟨drawWord v s.b.toNat s d, ?_⟩
    have htest : step ((s.drawn v d).setPhase .test) = .next (((s.drawn v d).setPhase .test).setPhase .draw) :=
      step_test_reject (by simpa [State.drawn] using hs.busy) (by simpa [State.drawn] using hs.held) rfl
        (by simpa [State.drawn] using hrej d (by omega))
    rw [Nat.mul_succ, runSteps_add hx, runSteps_succ (step_drawn hs hp d x), runSteps_one htest,
      State.setPhase_setPhase_self (by simpa [State.drawn] using hp), State.drawn]

/-- Up to the first accepted draw (R134, R135). -/
theorem runSteps_accepted {d : Nat} (hd : FirstAccepted v s.j.toNat s.b.toNat s d) :
    runSteps (2 * d + 2) s = .next ((s.drawn v d).setPhase .rdR) := by
  obtain ⟨x, hx⟩ := runSteps_rejected hs hp hd.rejected
  have htest : step ((s.drawn v d).setPhase .test) = .next (((s.drawn v d).setPhase .test).setPhase .rdR) :=
    step_test_accept (by simpa [State.drawn] using hs.busy) (by simpa [State.drawn] using hs.held) rfl
      (by simpa [State.drawn] using hd.accepted)
  rw [runSteps_add hx, runSteps_succ (step_drawn hs hp d x), runSteps_one htest]
  rfl

/-- While no draw is accepted the controller goes between DRAW and TEST (R139). -/
theorem runSteps_never_accepted (hrej : ∀ k, s.j.toNat < (drawWord v s.b.toNat s k).toNat) (m : Nat) :
    ∃ t : State, runSteps m s = .next t ∧ t.busy = true ∧ t.responses = s.responses ∧ t.seq = s.seq := by
  obtain ⟨d, hm⟩ := Nat.even_or_odd' m
  obtain ⟨x, hx⟩ := runSteps_rejected hs hp (d := d) fun k _ => hrej k
  obtain rfl | rfl := hm
  · exact ⟨_, hx, by simpa using hs.busy, by simp, by simp⟩
  · exact ⟨_, (runSteps_add hx 1).trans (runSteps_one (step_drawn hs hp d x)), by simpa [State.drawn] using hs.busy,
      by simp [State.drawn], by simp [State.drawn]⟩

end

/-- Settles O40: the controller goes between DRAW and TEST, which change nothing but the generator, R and the phase. -/
theorem endlessShuffleStaysBusy : Obligations.EndlessShuffleStaysBusy := by
  intro s v hb hp hh hc hv hrej
  exact runSteps_never_accepted ⟨hb, heldOff_of_nil hh, hc, hv⟩ hp hrej

/-! ### Rounds: the controller from one LOOP to the next (R130, R142) -/

section
variable (s : State)

@[simp] theorem State.widened_registers : s.widened.registers = s.registers := by unfold State.widened; split <;> rfl
@[simp] theorem State.widened_configured : s.widened.configured = s.configured := by unfold State.widened; split <;> rfl
@[simp] theorem State.widened_ver : s.widened.ver = s.ver := by unfold State.widened; split <;> rfl
@[simp] theorem State.widened_n : s.widened.n = s.n := by unfold State.widened; split <;> rfl
@[simp] theorem State.widened_j : s.widened.j = s.j := by unfold State.widened; split <;> rfl
@[simp] theorem State.widened_busy : s.widened.busy = s.busy := by unfold State.widened; split <;> rfl
@[simp] theorem State.widened_phase : s.widened.phase = .draw := rfl
@[simp] theorem State.widened_seq : s.widened.seq = s.seq := by unfold State.widened; split <;> rfl
@[simp] theorem State.widened_host : s.widened.host = s.host := by unfold State.widened; split <;> rfl
@[simp] theorem State.widened_setPhase (p : Phase) : (s.setPhase p).widened = s.widened := by
  unfold State.widened
  rw [State.setPhase_j, State.setPhase_hi]
  by_cases h : s.j = s.hi
  · rw [if_pos h, if_pos h]
    rfl
  · rw [if_neg h, if_neg h]
    rfl
@[simp] theorem State.widened_responses : s.widened.responses = s.responses := by unfold State.widened; split <;> rfl

end

/-- The whole round of a position: the width, the draws up to the first accepted one, the swap, the next position. -/
def State.round (s : State) (v : Version) (d : Nat) : State := (s.widened.drawn v d).swapped

section
variable (s : State) (v : Version) (d : Nat)

@[simp] theorem State.round_n : (s.round v d).n = s.n := by simp [State.round, State.drawn, State.swapped]
@[simp] theorem State.round_j : (s.round v d).j = s.j + 1 := by simp [State.round, State.drawn, State.swapped]
@[simp] theorem State.round_b : (s.round v d).b = s.widened.b := by simp [State.round, State.drawn, State.swapped]
@[simp] theorem State.round_hi : (s.round v d).hi = s.widened.hi := by simp [State.round, State.drawn, State.swapped]
@[simp] theorem State.round_r : (s.round v d).r = drawWord v s.widened.b.toNat s.widened d := by
  simp [State.round, State.drawn, State.swapped]
@[simp] theorem State.round_host : (s.round v d).host = s.host := by simp [State.round, State.drawn, State.swapped]
@[simp] theorem State.round_responses : (s.round v d).responses = s.responses := by
  simp [State.round, State.drawn, State.swapped]
@[simp] theorem State.round_seq :
    (s.round v d).seq = s.seq.swap (drawWord v s.widened.b.toNat s.widened d).toNat s.j.toNat := by
  simp [State.round, State.drawn]

/-- A round exchanges two elements and moves no other (R136). -/
theorem State.memRead_round {s : State} (h : s.seq.wf) (v : Version) (d i : Nat) :
    (s.round v d).memRead i = s.memRead (Equiv.swap (s.round v d).r.toNat s.j.toNat i) := by
  rw [State.memRead, State.round_seq, Memory.read_swap h, State.round_r, State.memRead]

/-- A round takes one `get()` per draw and nothing else from the generator (R138). -/
theorem State.round_registers : (s.round v d).registers = (getOutputs v (d + 1) s).2.registers := by
  rw [← getOutputs_congr s.widened_registers, State.round, State.swapped_registers, State.drawn, State.setR_registers]

end

/-- The controller is at LOOP. -/
structure AtLoop (v : Version) (s : State) : Prop extends Running v s where
  phase : s.phase = .loop

section
variable {v : Version} {s : State} (hs : AtLoop v s)
include hs

theorem AtLoop.widened : Running v s.widened :=
  ⟨by simpa using hs.busy, by simpa using hs.held, by simpa using hs.configured, by simpa using hs.version⟩

theorem AtLoop.round (d : Nat) : AtLoop v (s.round v d) where
  busy := by simpa [State.round, State.drawn, State.swapped] using hs.busy
  held := by simpa using hs.held
  configured := by simpa [State.round, State.drawn, State.swapped] using hs.configured
  version := by simpa [State.round, State.drawn, State.swapped] using hs.version
  phase := rfl

theorem runSteps_widened (hlt : s.j.toNat < s.n.toNat) : runSteps 2 s = .next s.widened := by
  have hwidth : step (s.setPhase .width) = .next s.widened := by
    rw [step_width (s := s.setPhase .width) hs.busy hs.held rfl, State.widened_setPhase]
  rw [runSteps_succ (step_loop hs.busy hs.held hs.phase hlt), runSteps_one hwidth]

theorem runSteps_round (hlt : s.j.toNat < s.n.toNat) {d : Nat}
    (hd : FirstAccepted v s.j.toNat s.widened.b.toNat s.widened d) :
    runSteps (2 + (2 * d + 2) + 4) s = .next (s.round v d) := by
  have hdraws := runSteps_accepted hs.widened rfl (by simpa using hd)
  have hswap : runSteps 4 ((s.widened.drawn v d).setPhase .rdR) = .next (s.round v d) := by
    rw [runSteps_swap (by simpa [State.drawn] using hs.busy) (by simpa [State.drawn] using hs.held) rfl,
      State.swapped_setPhase, State.round]
  rw [runSteps_add ((runSteps_add (runSteps_widened hs hlt) _).trans hdraws), hswap]

end

/-- Some rounds in a row, with the number of steps they take. -/
inductive Rounds (v : Version) : State → Nat → State → Prop where
  | none (s : State) : Rounds v s 0 s
  | next {s u : State} {d k : Nat} (hlt : s.j.toNat < s.n.toNat)
      (hd : FirstAccepted v s.j.toNat s.widened.b.toNat s.widened d) (hrest : Rounds v (s.round v d) k u) :
      Rounds v s (2 + (2 * d + 2) + 4 + k) u

theorem Rounds.runSteps_eq {v : Version} {s u : State} {k : Nat} (h : Rounds v s k u) (hs : AtLoop v s) :
    runSteps k s = .next u ∧ AtLoop v u := by
  induction h with
  | none s => exact ⟨rfl, hs⟩
  | next hlt hd _ ih =>
    obtain ⟨hrun, hu⟩ := ih (hs.round _)
    exact ⟨(runSteps_add (runSteps_round hs hlt hd) _).trans hrun, hu⟩

theorem Rounds.responses_eq {v : Version} {s u : State} {k : Nat} (h : Rounds v s k u) : u.responses = s.responses := by
  induction h with
  | none s => rfl
  | next _ _ _ ih => simpa using ih

theorem Rounds.host_eq {v : Version} {s u : State} {k : Nat} (h : Rounds v s k u) : u.host = s.host := by
  induction h with
  | none s => rfl
  | next _ _ _ ih => simpa using ih

/-- Rounds up to the end of the sequence, and the answer (R142). -/
theorem Rounds.runSteps_end {v : Version} {s u : State} {k : Nat} (h : Rounds v s k u) (hs : AtLoop v s)
    (hend : u.n.toNat ≤ u.j.toNat) : runSteps (k + 1) s = .next (u.issue ⟨.ok, 0⟩) := by
  obtain ⟨hrun, hu⟩ := h.runSteps_eq hs
  exact (runSteps_add hrun 1).trans (runSteps_one (step_loop_end hu.busy hu.held hu.phase hend))

/-! ### A run that ends is a run of rounds (R142) -/

/-- Between commands a block whose host does nothing stays as it is (R196). -/
theorem runSteps_free {s : State} (hb : s.busy = false) (hh : s.host = []) (k : Nat) : runSteps k s = .next s := by
  have hstep : step s = .next s := by simp [step, hostStep, blockStep, hh, hb]
  induction k with
  | zero => rfl
  | succ k ih => rw [runSteps_succ hstep, ih]

theorem step_host_nil {s t : State} (hh : s.host = []) (h : step s = .next t) : t.host = [] := by
  cases hb : s.busy with
  | false =>
    cases (runSteps_one h).symm.trans (runSteps_free hb hh 1)
    exact hh
  | true =>
    rw [step_heldOff hb (heldOff_of_nil hh)] at h
    exact (controllerStep_responses h).1.trans hh

theorem runSteps_host_nil {s t : State} {k : Nat} (hh : s.host = []) (h : runSteps k s = .next t) : t.host = [] := by
  induction k generalizing s with
  | zero =>
    cases h
    exact hh
  | succ k ih =>
    obtain ⟨u, hstep, h⟩ := exists_step_of_runSteps_succ h
    exact ih (step_host_nil hh hstep) h

/-- A run that ends goes through every busy state that the block reaches. -/
theorem runSteps_of_busy {s t u : State} {a k : Nat} (hh : s.host = []) (hu : runSteps a s = .next u) (hb : u.busy = true)
    (ht : runSteps k s = .next t) (hfree : t.busy = false) : ∃ e, k = a + e ∧ runSteps e u = .next t := by
  obtain ⟨e, rfl⟩ | ⟨e, rfl⟩ := (Nat.le_total a k).imp Nat.exists_eq_add_of_le Nat.exists_eq_add_of_le
  · exact ⟨e, rfl, (runSteps_add hu e).symm.trans ht⟩
  · have hstay : runSteps (k + e) s = .next t := (runSteps_add ht e).trans (runSteps_free hfree (runSteps_host_nil hh ht) e)
    cases hu.symm.trans hstay
    exact absurd (hb.symm.trans hfree) nofun

/-- The next position is the next number (R28). -/
theorem toNat_next_position {s : State} (hlt : s.j.toNat < s.n.toNat) (hn : s.n.toNat ≤ 2 ^ 32) :
    (s.j + 1).toNat = s.j.toNat + 1 := by
  bv_omega

theorem exists_rounds_of_ends {v : Version} {s t : State} {k : Nat} (hs : AtLoop v s) (hh : s.host = [])
    (hn : s.n.toNat ≤ 2 ^ 32) (ht : runSteps k s = .next t) (hfree : t.busy = false) :
    ∃ m u, Rounds v s m u ∧ u.n.toNat ≤ u.j.toNat ∧ m + 1 ≤ k ∧ t = u.issue ⟨.ok, 0⟩ := by
  induction hleft : s.n.toNat - s.j.toNat generalizing s k with
  | zero =>
    have hend : s.n.toNat ≤ s.j.toNat := by omega
    obtain ⟨e, rfl, ht'⟩ := runSteps_of_busy (a := 0) hh rfl hs.busy ht hfree
    cases e with
    | zero =>
      cases ht'
      exact absurd (hs.busy.symm.trans hfree) nofun
    | succ e =>
      rw [runSteps_succ (step_loop_end hs.busy hs.held hs.phase hend), runSteps_free (s := s.issue ⟨.ok, 0⟩) rfl hh] at ht'
      cases ht'
      exact ⟨0, s, .none s, hend, by omega, rfl⟩
  | succ left ih =>
    have hlt : s.j.toNat < s.n.toNat := by omega
    by_cases hacc : ∃ i, (drawWord v s.widened.b.toNat s.widened i).toNat ≤ s.j.toNat
    · obtain ⟨d, hd⟩ := exists_firstAccepted hacc
      have hnext := toNat_next_position hlt hn
      obtain ⟨e, rfl, ht'⟩ := runSteps_of_busy hh (runSteps_round hs hlt hd) (hs.round d).busy ht hfree
      obtain ⟨m, u, hrounds, hend, hle, hu⟩ := ih (hs.round d) (by simpa using hh) (by simpa using hn) ht'
        (by rw [State.round_n, State.round_j]; omega)
      exact ⟨_, u, .next hlt hd hrounds, hend, by omega, hu⟩
    · obtain ⟨e, rfl, ht'⟩ := runSteps_of_busy hh (runSteps_widened hs hlt) hs.widened.busy ht hfree
      obtain ⟨t', hrun, hb, -⟩ := runSteps_never_accepted hs.widened rfl (by simpa using hacc) e
      cases hrun.symm.trans ht'
      exact absurd (hb.symm.trans hfree) nofun

/-! ### SHUFFLE starts the controller at its first LOOP (R130) -/

theorem startShuffle_atLoop {v : Version} {s : State} (hh : HostHeldOff s.host) (hc : s.configured = true)
    (hv : versionOf s.ver = some v) (n : BitVec 33) : AtLoop v (s.startShuffle n) :=
  ⟨⟨rfl, hh, hc, hv⟩, rfl⟩

/-- A SHUFFLE that leaves the block busy has passed both checks (R131, R185). -/
theorem execShuffle_busy {s t : State} {v : Version} {arg : Arg} (hv : versionOf s.ver = some v)
    (h : exec (.shuffle arg) s = .next t) (hb : t.busy = true) :
    s.configured = true ∧ arg.toNat ≤ v.nstates ∧ t = s.startShuffle (arg.setWidth 33) := by
  obtain ⟨-, rfl⟩ | ⟨hc, w, hw, ⟨-, rfl⟩ | ⟨hle, rfl⟩⟩ := execShuffle_next h
  · exact absurd hb nofun
  · exact absurd hb nofun
  · obtain rfl : w = v := Option.some_injective _ (hw.symm.trans hv)
    exact ⟨hc, hle, rfl⟩

/-! ### What a SHUFFLE leaves when it answers (R130) -/

/-- The controller's state `c` holds the generator and the memory of `p` (R130 knows no more of the state). -/
structure Carries (c p : State) : Prop where
  registers : c.registers = p.registers
  seq : c.seq = p.seq
  host : c.host = p.host

theorem Carries.issue_eq {c p : State} (h : Carries c p) (x : Response) :
    c.issue x =
      { p with
        n := c.n, j := c.j, b := c.b, hi := c.hi, r := c.r, t0 := c.t0, t1 := c.t1, phase := c.phase
        responses := x :: c.responses, busy := false } := by
  obtain ⟨hregs, hseq, hhost⟩ := h
  simp only [State.registers, Registers.mk.injEq, Prod.mk.injEq] at hregs
  simp [State.issue, hregs, hseq, hhost]

theorem startShuffle_carries (s : State) (n : BitVec 33) : Carries (s.startShuffle n) s := ⟨rfl, rfl, rfl⟩

/-! ### SHUFFLE of 0, 1 and 2 elements (R137) -/

/-- Position 1 is covered by the one bit that SHUFFLE starts with (R133). -/
@[simp] theorem startShuffle_widened_b (s : State) (n : BitVec 33) : (s.startShuffle n).widened.b = 1 := by
  simp [State.widened]

/-- Settles O36: with N at most 1 the first LOOP answers; with N = 2 the one draw has one bit, and so is accepted at once. -/
theorem shortShufflesDrawLittle : Obligations.ShortShufflesDrawLittle := by
  intro s v hs hc hv hh
  refine ⟨fun arg harg => ?_, ?_⟩
  · have hle : arg.toNat ≤ v.nstates := harg.trans (Nat.two_pow_pos v.bits)
    have hstart := startShuffle_atLoop hh hc hv (arg.setWidth 33)
    have hend : (arg.setWidth 33).toNat ≤ 1 := (toNat_setWidth_length hle).trans_le harg
    exact ⟨_, _, execShuffle_ok hc hv hle, step_loop_end hstart.busy hstart.held hstart.phase hend, rfl⟩
  · have hle : (2 : Arg).toNat ≤ v.nstates := Nat.pow_le_pow_right (n := 2) (i := 1) (by decide) v.one_le_bits
    have hstart := startShuffle_atLoop hh hc hv 2
    have hbit : (drawWord v 1 s 0).toNat < 2 ^ 1 :=
      drawOf_lt (getOutput_generatorOk (hs.generatorOk hc hv)).2.1 v.one_le_bits
    have hdraw : drawWord v 1 (s.startShuffle 2).widened 0 = drawWord v 1 s 0 :=
      drawWord_congr (by simp) v 1 0
    have hd : FirstAccepted v 1 1 (s.startShuffle 2).widened 0 := ⟨nofun, by rw [hdraw]; omega⟩
    have hrounds : Rounds v (s.startShuffle 2) 8 ((s.startShuffle 2).round v 0) :=
      .next (s := s.startShuffle 2) (d := 0) (by simp) (by simpa using hd) (.none _)
    have hr : ((s.startShuffle 2).round v 0).r = drawWord v 1 s 0 := by
      rw [State.round_r, startShuffle_widened_b]
      exact hdraw
    refine ⟨_, _, execShuffle_ok hc hv hle, hrounds.runSteps_end hstart (by simp), ?_, fun i => ?_, ?_⟩
    · rw [State.issue_r, hr]
      omega
    · exact State.memRead_round (s := s.startShuffle 2) hs.seqWf v 0 i
    · have hregs := (State.round_registers (s.startShuffle 2) v 0).trans
        (getOutputs_congr (State.startShuffle_registers s 2) v 1)
      have hcar : Carries ((s.startShuffle 2).round v 0) ((getOutput v s).2.setSeq ((s.startShuffle 2).round v 0).seq) :=
        ⟨hregs, rfl, by simp⟩
      rw [hcar.issue_eq, State.round_responses]
      rfl

/-! ### One `get()` per draw step (R138) -/

/-- What a step does to the registers of the generator, the host doing nothing: one `get()` in phase DRAW of a running
controller, else nothing (R138). -/
theorem step_registers_eq {v : Version} {s t : State} (hh : s.host = []) (hv : versionOf s.ver = some v)
    (h : step s = .next t) :
    t.registers = if s.busy = true ∧ s.phase = .draw then (getOutput v s).2.registers else s.registers := by
  cases hb : s.busy with
  | false =>
    cases (runSteps_one h).symm.trans (runSteps_free hb hh 1)
    simp
  | true =>
    rw [step_heldOff hb (heldOff_of_nil hh)] at h
    obtain ⟨hp, -, rfl⟩ | ⟨hp, -, rfl⟩ | ⟨hp, -, rfl⟩ | ⟨hp, -, rfl⟩ | ⟨hp, -, w, hw, rfl⟩ | ⟨hp, -, rfl⟩ | ⟨hp, -, rfl⟩ |
      ⟨hp, rfl⟩ | ⟨hp, rfl⟩ | ⟨hp, rfl⟩ | ⟨hp, rfl⟩ := controllerStep_next h
    case inr.inr.inr.inr.inl =>
      obtain rfl : w = v := Option.some_injective _ (hw.symm.trans hv)
      simp [hp, State.registers]
    all_goals simp [hp, State.registers]

theorem drawSteps_succ {s t : State} (h : step s = .next t) (k : Nat) :
    drawSteps (k + 1) s = (if s.busy = true ∧ s.phase = .draw then 1 else 0) + drawSteps k t := by
  rw [drawSteps, h]

theorem runSteps_registers {v : Version} {s t : State} {k : Nat} (hh : s.host = []) (hv : versionOf s.ver = some v)
    (h : runSteps k s = .next t) : t.registers = (getOutputs v (drawSteps k s) s).2.registers := by
  induction k generalizing s with
  | zero =>
    cases h
    rfl
  | succ k ih =>
    obtain ⟨u, hstep, h⟩ := exists_step_of_runSteps_succ h
    have hregs := step_registers_eq hh hv hstep
    have hver : u.ver = s.ver := (congrArg Registers.ver hregs).trans (by split <;> simp [State.registers])
    rw [ih (step_host_nil hh hstep) (by rw [hver, hv]) h, drawSteps_succ hstep]
    by_cases hdraw : s.busy = true ∧ s.phase = .draw
    · rw [if_pos hdraw] at hregs ⊢
      rw [getOutputs_congr hregs, Nat.add_comm]
      rfl
    · rw [if_neg hdraw] at hregs ⊢
      rw [getOutputs_congr hregs, Nat.zero_add]

/-- How many draws the controller has still to make at least: one for every position from J on, but for the one at J once it
is made (R130). -/
def State.drawsDue (s : State) : Nat :=
  if s.busy then
    match s.phase with
    | .loop | .width | .draw => s.n.toNat - s.j.toNat
    | .test | .rdR | .rdJ | .wrJ | .wrR => s.n.toNat - s.j.toNat - 1
  else 0

theorem drawsDue_le {s t : State} (hh : s.host = []) (h : step s = .next t) :
    s.drawsDue ≤ (if s.busy = true ∧ s.phase = .draw then 1 else 0) + t.drawsDue := by
  cases hb : s.busy with
  | false => simp [State.drawsDue, hb]
  | true =>
    rw [step_heldOff hb (heldOff_of_nil hh)] at h
    obtain ⟨hp, hend, rfl⟩ | ⟨hp, -, rfl⟩ | ⟨hp, -, rfl⟩ | ⟨hp, -, rfl⟩ | ⟨hp, -, w, hw, rfl⟩ | ⟨hp, -, rfl⟩ | ⟨hp, -, rfl⟩ |
      ⟨hp, rfl⟩ | ⟨hp, rfl⟩ | ⟨hp, rfl⟩ | ⟨hp, rfl⟩ := controllerStep_next h
    case inl => simpa [State.drawsDue, hp, hb, Nat.sub_eq_zero_iff_le] using hend
    case inr.inr.inr.inr.inr.inr.inr.inr.inr.inr =>
      have hnext : (s.j + 1).toNat ≤ s.j.toNat + 1 := by bv_omega
      have hdue : s.n.toNat - s.j.toNat - 1 ≤ s.n.toNat - (s.j + 1).toNat := by omega
      simpa [State.drawsDue, hp, hb, -BitVec.toNat_add] using hdue
    all_goals
      simp [State.drawsDue, hp, hb]
    all_goals omega

theorem drawsDue_le_drawSteps {s t : State} {k : Nat} (hh : s.host = []) (h : runSteps k s = .next t) :
    s.drawsDue ≤ drawSteps k s + t.drawsDue := by
  induction k generalizing s with
  | zero =>
    cases h
    exact Nat.le_add_left ..
  | succ k ih =>
    obtain ⟨u, hstep, h⟩ := exists_step_of_runSteps_succ h
    have hfirst := drawsDue_le hh hstep
    have hrest := ih (step_host_nil hh hstep) h
    rw [drawSteps_succ hstep]
    omega

/-- Settles O39: the generator step by step, and the draws still due, which no step lowers but a draw. -/
theorem shuffleConsumesOneGetPerDraw : Obligations.ShuffleConsumesOneGetPerDraw := by
  intro s s1 t v arg k hh hv hstart hb hrun
  obtain ⟨hc, hle, rfl⟩ := execShuffle_busy hv hstart hb
  have hregs : t.registers = (getOutputs v (drawSteps k (s.startShuffle (arg.setWidth 33))) s).2.registers :=
    (runSteps_registers (s := s.startShuffle _) hh hv hrun).trans (getOutputs_congr (State.startShuffle_registers s _) v _)
  refine ⟨?_, fun hfree => ?_⟩
  · simp only [State.registers, Registers.mk.injEq, Prod.mk.injEq] at hregs
    simp [hregs]
  · have hdue := drawsDue_le_drawSteps (s := s.startShuffle _) hh hrun
    simpa [State.drawsDue, hfree, toNat_setWidth_length hle] using hdue

/-! ### The permutation (R140) -/

/-- The controllers of two blocks are at the same place with the same generator; their elements may differ. -/
structure Twin (v : Version) (s t : State) : Prop where
  n : s.n = t.n
  j : s.j = t.j
  b : s.b = t.b
  hi : s.hi = t.hi
  generator : SameGenerator v s t

theorem SameGenerator.after_getOutputs {v : Version} {s t : State} (h : SameGenerator v s t) (k : Nat) :
    SameGenerator v (getOutputs v k s).2 (getOutputs v k t).2 := by
  induction k generalizing s t with
  | zero => exact h
  | succ k ih => exact ih h.after_getOutput.2

theorem SameGenerator.of_registers {v : Version} {s s' t t' : State} (h : SameGenerator v s t)
    (hs : s'.registers = s.registers) (ht : t'.registers = t.registers) : SameGenerator v s' t' := by
  simp only [State.registers, Registers.mk.injEq, Prod.mk.injEq] at hs ht
  obtain ⟨hc, h0, hrest, hwrap⟩ := h
  exact ⟨by simp [hs, ht, hc], by simp [hs, ht, h0], by simpa [hs, ht] using hrest, by simpa [hs, ht] using hwrap⟩

section
variable {v : Version} {s t : State} (h : Twin v s t)
include h

theorem Twin.widened : Twin v s.widened t.widened := by
  have hgen := h.generator.of_registers s.widened_registers t.widened_registers
  refine ⟨by simp [h.n], by simp [h.j], ?_, ?_, hgen⟩
  all_goals
    unfold State.widened
    rw [h.j, h.hi]
    split <;> simp [h.b, h.hi]

theorem Twin.drawWord_eq (b k : Nat) : drawWord v b s k = drawWord v b t k :=
  congrArg (drawOf v.bits b) (h.generator.after_getOutputs k).after_getOutput.1

theorem Twin.round (d : Nat) : Twin v (s.round v d) (t.round v d) where
  n := by simp [h.n]
  j := by simp [h.j]
  b := by simp [h.widened.b]
  hi := by simp [h.widened.hi]
  generator := (h.generator.after_getOutputs (d + 1)).of_registers (s.round_registers v d) (t.round_registers v d)

end

/-- Rounds exchange positions that the generator picks, whatever the elements there (R136, R140). -/
theorem Rounds.permutes {v : Version} {s u : State} {k : Nat} (h : Rounds v s k u) :
    ∃ σ : Equiv.Perm Nat, (∀ i, s.n.toNat ≤ i → σ i = i) ∧ ∀ t : State, Twin v s t → t.seq.wf →
      ∃ w, Rounds v t k w ∧ Twin v u w ∧ ∀ i, w.memRead i = t.memRead (σ i) := by
  induction h with
  | none s => exact ⟨1, fun _ _ => rfl, fun t ht _ => ⟨t, .none t, ht, fun _ => rfl⟩⟩
  | @next s u d k hlt hd _ ih =>
    obtain ⟨σ, hfix, hmove⟩ := ih
    let r := (drawWord v s.widened.b.toNat s.widened d).toNat
    refine ⟨σ.trans (Equiv.swap r s.j.toNat), fun i hi => ?_, fun t ht hwf => ?_⟩
    · have hr : r ≤ s.j.toNat := hd.accepted
      rw [Equiv.trans_apply, hfix i (by simpa using hi), Equiv.swap_apply_of_ne_of_ne (by omega) (by omega)]
    · obtain ⟨w, hrounds, hw, hread⟩ := hmove (t.round v d) (ht.round d) (by simpa using Memory.swap_wf hwf _ _)
      have hd' : FirstAccepted v t.j.toNat t.widened.b.toNat t.widened d := by
        rw [← ht.j, ← ht.widened.b]
        exact hd.congr (ht.widened.drawWord_eq _)
      refine ⟨w, .next (by rwa [← ht.n, ← ht.j]) hd' hrounds, hw, fun i => ?_⟩
      rw [hread, State.memRead_round hwf, State.round_r, ← ht.widened.drawWord_eq, ← ht.widened.b, ← ht.j]
      rfl

/-- Settles O38: the run is one of rounds, and rounds of the same generator move the positions alike. -/
theorem shufflePermutesPositions : Obligations.ShufflePermutesPositions := by
  intro s s1 t v arg k hs hh hv hstart hb hrun hfree
  obtain ⟨hc, hle, rfl⟩ := execShuffle_busy hv hstart hb
  have hn := toNat_setWidth_length hle
  have hloop := startShuffle_atLoop (heldOff_of_nil hh) hc hv (arg.setWidth 33)
  obtain ⟨m, u, hrounds, hend, hmk, rfl⟩ :=
    exists_rounds_of_ends hloop hh (hn.trans_le (hle.trans v.nstates_le)) hrun hfree
  obtain ⟨σ, hfix, hmove⟩ := hrounds.permutes
  have htwin {s' : State} (hgen : SameGenerator v s s') :
      Twin v (s.startShuffle (arg.setWidth 33)) (s'.startShuffle (arg.setWidth 33)) :=
    ⟨rfl, rfl, rfl, rfl, hgen.of_registers rfl rfl⟩
  refine ⟨σ, fun i hi => hfix i (hn.trans_le hi), fun i => ?_, fun s' hwf hh' hc' hver hgen => ?_⟩
  · obtain ⟨w, hrounds', -, hread⟩ := hmove _ (htwin ⟨rfl, rfl, fun _ => ⟨rfl, rfl, rfl⟩, fun _ => ⟨rfl, rfl⟩⟩) hs.seqWf
    cases (hrounds.runSteps_eq hloop).1.symm.trans (hrounds'.runSteps_eq hloop).1
    exact hread i
  · have hv' : versionOf s'.ver = some v := by rw [hver, hv]
    have hloop' := startShuffle_atLoop (heldOff_of_nil hh') hc' hv' (arg.setWidth 33)
    obtain ⟨w, hrounds', htw, hread⟩ := hmove _ (htwin hgen) hwf
    have hend' := hrounds'.runSteps_end hloop' (by rwa [← htw.n, ← htw.j])
    obtain ⟨e, rfl⟩ := Nat.exists_eq_add_of_le hmk
    have hhost : w.host = [] := hrounds'.host_eq.trans hh'
    exact ⟨_, w.issue ⟨.ok, 0⟩, execShuffle_ok hc' hv' hle,
      (runSteps_add hend' e).trans (runSteps_free (s := w.issue ⟨.ok, 0⟩) rfl hhost e), rfl, hread⟩

/-! ### The rounds are R130 (R130, R133, R142) -/

/-- WIDTH on numbers: inside the sequence neither B nor HI wraps (R133). -/
theorem WidthOk.toNat_widened {v : Version} {s : State} (h : WidthOk v s) (hlt : s.j.toNat < s.n.toNat) :
    s.widened.b.toNat = (if s.j.toNat = s.hi.toNat then s.b.toNat + 1 else s.b.toNat) ∧
      s.widened.hi.toNat = (if s.j.toNat = s.hi.toNat then 2 * s.hi.toNat else s.hi.toNat) := by
  have hj := h.index_lt hlt
  obtain ⟨-, ⟨-, hbits⟩, -⟩ := h
  have hmax := v.bits_le
  by_cases he : s.j = s.hi
  · have hb : (s.b + 1).toNat = s.b.toNat + 1 := by bv_omega
    have hhi : (s.hi <<< 1).toNat = 2 * s.hi.toNat := by
      rw [← he]
      bv_omega
    rw [State.widened, if_pos he, if_pos (congrArg BitVec.toNat he), if_pos (congrArg BitVec.toNat he)]
    exact ⟨hb, hhi⟩
  · have hne : s.j.toNat ≠ s.hi.toNat := fun h => he (BitVec.eq_of_toNat_eq h)
    rw [State.widened, if_neg he, if_neg hne, if_neg hne]
    exact ⟨rfl, rfl⟩

/-- R130's `repeat` ends under some fuel where the controller accepts its first draw (R134, R135). -/
theorem drawUntil_eq_some_iff {v : Version} {j b fuel : Nat} {p : State} {x : Nat × State} :
    drawUntil v j b fuel p = some x ↔
      ∃ d < fuel, FirstAccepted v j b p d ∧ x = ((drawWord v b p d).toNat, (getOutputs v (d + 1) p).2) := by
  induction fuel generalizing p with
  | zero => simp [drawUntil]
  | succ fuel ih =>
    rw [drawUntil]
    split
    next hacc =>
      constructor
      · intro hx
        cases hx
        exact ⟨0, by omega, ⟨nofun, hacc⟩, rfl⟩
      · rintro ⟨d, -, hd, rfl⟩
        cases d with
        | zero => rfl
        | succ d => exact absurd hacc (Nat.not_le.mpr (hd.rejected 0 (by omega)))
    next hrej =>
      rw [ih]
      constructor
      · rintro ⟨d, hlt, hd, rfl⟩
        refine ⟨d + 1, by omega, ⟨fun i hi => ?_, hd.accepted⟩, rfl⟩
        cases i with
        | zero => exact Nat.not_le.mp hrej
        | succ i => exact hd.rejected i (by omega)
      · rintro ⟨d, hlt, hd, rfl⟩
        cases d with
        | zero => exact absurd hd.accepted hrej
        | succ d => exact ⟨d, by omega, ⟨fun i hi => hd.rejected (i + 1) (by omega), hd.accepted⟩, rfl⟩

/-- What R130 has still to do when the controller is at LOOP in the state `c`, on the generator and the memory of `p`. -/
def State.shuffleRest (c : State) (v : Version) (fuel : Nat) (p : State) : Option State :=
  shuffleFrom v fuel (c.n.toNat - c.j.toNat) c.j.toNat c.b.toNat c.hi.toNat p

theorem shuffleRest_end {c : State} (h : c.n.toNat ≤ c.j.toNat) (v : Version) (fuel : Nat) (p : State) :
    c.shuffleRest v fuel p = some p := by
  rw [State.shuffleRest, Nat.sub_eq_zero_of_le h, shuffleFrom]

/-- The generator and the memory of `p` after a round of the controller `c`. -/
def State.roundOn (c : State) (v : Version) (d : Nat) (p : State) : State :=
  (getOutputs v (d + 1) p).2.setSeq (p.seq.swap (drawWord v c.widened.b.toNat p d).toNat c.j.toNat)

theorem Carries.round {c p : State} (h : Carries c p) (v : Version) (d : Nat) :
    Carries (c.round v d) (c.roundOn v d p) where
  registers := (State.round_registers c v d).trans (getOutputs_congr h.registers v _)
  seq := by
    rw [State.round_seq, drawWord_congr (c.widened_registers.trans h.registers), h.seq]
    rfl
  host := by simpa [State.roundOn] using h.host

section
variable {v : Version} {c p : State} (hc : WidthOk v c) (hlt : c.j.toNat < c.n.toNat) (fuel : Nat)
include hc hlt

/-- R130 at a position of the sequence: its draws, its swap, and the rest from the next position. -/
theorem shuffleRest_eq_bind : c.shuffleRest v fuel p =
    (drawUntil v c.j.toNat c.widened.b.toNat fuel p).bind fun x =>
      shuffleFrom v fuel (c.n.toNat - (c.j.toNat + 1)) (c.j.toNat + 1) c.widened.b.toNat c.widened.hi.toNat
        (x.2.setSeq (x.2.seq.swap x.1 c.j.toNat)) := by
  obtain ⟨hb, hhi⟩ := hc.toNat_widened hlt
  obtain ⟨k, hk⟩ : ∃ k, c.n.toNat - c.j.toNat = k + 1 := ⟨c.n.toNat - c.j.toNat - 1, by omega⟩
  rw [State.shuffleRest, hk, shuffleFrom, ← hb, ← hhi, show c.n.toNat - (c.j.toNat + 1) = k by omega]
  cases drawUntil v c.j.toNat c.widened.b.toNat fuel p <;> rfl

variable (hcar : Carries c p)
include hcar

theorem shuffleRest_round {d : Nat} (hd : FirstAccepted v c.j.toNat c.widened.b.toNat c.widened d) (hfuel : d < fuel) :
    c.shuffleRest v fuel p = (c.round v d).shuffleRest v fuel (c.roundOn v d p) := by
  have hd' := hd.congr (drawWord_congr (c.widened_registers.trans hcar.registers) v _)
  have hnext := toNat_next_position hlt (hc.1.trans v.nstates_le)
  rw [shuffleRest_eq_bind hc hlt, drawUntil_eq_some_iff.mpr ⟨d, hfuel, hd', rfl⟩, Option.bind_some, State.shuffleRest,
    State.round_n, State.round_j, State.round_b, State.round_hi, hnext, State.roundOn, getOutputs_seq]

theorem exists_round_of_shuffleRest {g : State} (h : c.shuffleRest v fuel p = some g) :
    ∃ d < fuel, FirstAccepted v c.j.toNat c.widened.b.toNat c.widened d := by
  rw [shuffleRest_eq_bind hc hlt] at h
  obtain ⟨x, hx, -⟩ := Option.bind_eq_some_iff.mp h
  obtain ⟨d, hfuel, hd, -⟩ := drawUntil_eq_some_iff.mp hx
  exact ⟨d, hfuel, hd.congr (drawWord_congr (hcar.registers.symm.trans c.widened_registers.symm) v _)⟩

end

/-- After WIDTH the B bits cover J (R133). -/
theorem WidthOk.widened {v : Version} {c : State} (h : WidthOk v c) (hlt : c.j.toNat < c.n.toNat) :
    WidthOk v c.widened ∧ c.j.toNat < 2 ^ c.widened.b.toNat := by
  unfold State.widened
  split
  next he => exact h.grow he hlt
  next he =>
    obtain ⟨-, -, hhi, -, hhigh⟩ := id h
    exact ⟨h, lt_of_le_of_ne hhigh fun hj => he (BitVec.eq_of_toNat_eq (hj.trans hhi.symm))⟩

/-- A round keeps what the width rests on (R133). -/
theorem WidthOk.round {v : Version} {c : State} (h : WidthOk v c) (hlt : c.j.toNat < c.n.toNat) (d : Nat) :
    WidthOk v (c.round v d) := by
  obtain ⟨hwide, hcov⟩ := h.widened hlt
  obtain ⟨hnext, -⟩ := hwide.advance ⟨by simpa using hlt, by simpa using hcov⟩
  simpa [WidthOk] using hnext

/-- When R130 ends under some fuel the controller has rounds to the end, with the same result. -/
theorem exists_rounds_of_shuffleRest {v : Version} {c p g : State} {fuel : Nat} (hc : WidthOk v c) (hcar : Carries c p)
    (h : c.shuffleRest v fuel p = some g) : ∃ m u, Rounds v c m u ∧ u.n.toNat ≤ u.j.toNat ∧ Carries u g := by
  induction hleft : c.n.toNat - c.j.toNat generalizing c p with
  | zero =>
    have hend : c.n.toNat ≤ c.j.toNat := by omega
    cases (shuffleRest_end hend v fuel p).symm.trans h
    exact ⟨0, c, .none c, hend, hcar⟩
  | succ left ih =>
    have hlt : c.j.toNat < c.n.toNat := by omega
    obtain ⟨d, hfuel, hd⟩ := exists_round_of_shuffleRest hc hlt fuel hcar h
    have hnext := toNat_next_position hlt (hc.1.trans v.nstates_le)
    rw [shuffleRest_round hc hlt fuel hcar hd hfuel] at h
    obtain ⟨m, u, hrounds, hend, hu⟩ := ih (hc.round hlt d) (hcar.round v d) h (by
      rw [State.round_n, State.round_j]
      omega)
    exact ⟨_, u, .next hlt hd hrounds, hend, hu⟩

/-- When the controller has rounds to the end R130 ends under any fuel above the draws of each round, with the same result. -/
theorem Rounds.exists_shuffleRest {v : Version} {c u : State} {m : Nat} (h : Rounds v c m u)
    (hend : u.n.toNat ≤ u.j.toNat) {p : State} (hc : WidthOk v c) (hcar : Carries c p) :
    ∃ g bound, Carries u g ∧ ∀ fuel, bound ≤ fuel → c.shuffleRest v fuel p = some g := by
  induction h generalizing p with
  | none c => exact ⟨p, 0, hcar, fun fuel _ => shuffleRest_end hend v fuel p⟩
  | @next c u d k hlt hd _ ih =>
    obtain ⟨g, bound, hu, hall⟩ := ih hend (hc.round hlt d) (hcar.round v d)
    refine ⟨g, max bound (d + 1), hu, fun fuel hle => ?_⟩
    rw [shuffleRest_round hc hlt fuel hcar hd (by omega)]
    exact hall fuel (by omega)

/-- Settles O37: R130 and the controller take the same rounds, each ends when they are through, and the answer is the last
step. -/
theorem controllerRefinesWholeShuffle : Obligations.ControllerRefinesWholeShuffle := by
  intro s v arg hs hc hv hh hle
  have hn := toNat_setWidth_length hle
  have hloop := startShuffle_atLoop (heldOff_of_nil hh) hc hv (arg.setWidth 33)
  obtain ⟨hwidth, -⟩ := controllerOk_iff.mp (startShuffle_controllerOk s hle)
  have hcar := startShuffle_carries s (arg.setWidth 33)
  have hwhole (fuel : Nat) : shuffleWhole v fuel arg.toNat s = (s.startShuffle (arg.setWidth 33)).shuffleRest v fuel s := by
    rw [State.shuffleRest, State.startShuffle_n, hn]
    rfl
  refine ⟨_, execShuffle_ok hc hv hle, fun fuel g hg => ?_, fun k t hrun hfree => ?_⟩
  · obtain ⟨m, u, hrounds, hend, hu⟩ := exists_rounds_of_shuffleRest hwidth hcar ((hwhole fuel).symm.trans hg)
    refine ⟨m + 1, u.issue ⟨.ok, 0⟩, hrounds.runSteps_end hloop hend, ?_⟩
    rw [hu.issue_eq, hrounds.responses_eq]
    rfl
  · obtain ⟨m, u, hrounds, hend, -, rfl⟩ :=
      exists_rounds_of_ends hloop hh (hn.trans_le (hle.trans v.nstates_le)) hrun hfree
    obtain ⟨g, bound, hu, hall⟩ := hrounds.exists_shuffleRest hend hwidth hcar
    refine ⟨bound, g, (hwhole bound).trans (hall bound le_rfl), ?_⟩
    rw [hu.issue_eq, hrounds.responses_eq]
    rfl

/-! ### Every SHUFFLE of an unwrapped LCG or xorshift32 version ends (R97, R100, R139) -/

/-- An algorithm of one state word: each raw output is the word's successor and the next state word (R88, R91). -/
def StepsBy (a : RawAlg) (s : State) (f : Word → Word) : Prop :=
  ∀ t : State, t.config = s.config → nextRaw a t = (f t.s0, t.setS0 (f t.s0))

theorem StepsBy.getOutputs_s0 {v : Version} {s : State} {f : Word → Word} (h : StepsBy v.raw s f)
    (hw : v.wrapped = false) (k : Nat) : (getOutputs v k s).2.s0 = f^[k] s.s0 := by
  induction k with
  | zero => rfl
  | succ k ih =>
    rw [getOutputs_succ, getOutput_unwrapped hw, h _ (getOutputs_config v k s), Function.iterate_succ_apply', ← ih]
    rfl

theorem StepsBy.output_eq {v : Version} {s : State} {f : Word → Word} (h : StepsBy v.raw s f)
    (hw : v.wrapped = false) (k : Nat) : (getOutput v (getOutputs v k s).2).1 = f^[k] (f s.s0) := by
  rw [getOutput_unwrapped hw, h _ (getOutputs_config v k s), h.getOutputs_s0 hw, ← Function.iterate_succ_apply' f,
    Function.iterate_succ_apply]

/-- The full period of an admissible pair meets 1 (R97). -/
theorem exists_lcgStep_iterate_eq_one {c : Config} (hc : c.Ok) {ac : Nat × Nat} {bits : Nat}
    (h : ac = lcg16Pair c ∧ bits = 16 ∨ ac = lcg26Pair c ∧ bits = 26 ∨ ac = (121525, 386076519) ∧ bits = 32) {x : Word}
    (hx : x.toNat < 2 ^ bits) : ∃ k, (lcgStep ac bits)^[k] x = 1 := by
  have hone : (1 : Word).toNat < 2 ^ bits := by
    obtain ⟨-, rfl⟩ | ⟨-, rfl⟩ | ⟨-, rfl⟩ := h <;> decide
  obtain ⟨-, hall⟩ := lcgHasFullPeriod c hc ac bits h
  exact ((hall x hx).1 1 hone).imp fun _ => And.right

/-- The output 1 comes sooner or later: the cycle of the state word goes through 1 (R97, R100). -/
theorem exists_output_one {v : Version} {s : State} (hc : s.config.Ok) (hraw : RawOk v.raw s) (hw : v.wrapped = false)
    (ha : v.raw = .lcg16 ∨ v.raw = .lcg26 ∨ v.raw = .lcg32 ∨ v.raw = .xs32) :
    ∃ k, (getOutput v (getOutputs v k s).2).1 = 1 := by
  obtain ⟨f, hf, k, hk⟩ : ∃ f, StepsBy v.raw s f ∧ ∃ k, f^[k] (f s.s0) = 1 := by
    obtain ⟨-, hne, -⟩ := hraw
    obtain ha | ha | ha | ha := ha <;> rw [ha] at hne ⊢
    · exact ⟨_, fun t ht => by rw [← ht]; rfl, exists_lcgStep_iterate_eq_one hc (.inl ⟨rfl, rfl⟩) (lcgStep_lt _ _ _)⟩
    · exact ⟨_, fun t ht => by rw [← ht]; rfl, exists_lcgStep_iterate_eq_one hc (.inr (.inl ⟨rfl, rfl⟩)) (lcgStep_lt _ _ _)⟩
    · exact ⟨_, fun t ht => rfl, exists_lcgStep_iterate_eq_one hc (.inr (.inr ⟨rfl, rfl⟩)) (lcgStep_lt _ _ _)⟩
    · exact ⟨_, fun t ht => by rw [← ht]; rfl,
        hc.oneCycle.2 _ 1 (xs32Step_ne_zero hc.oneCycle (hne rfl)) (by decide)⟩
  exact ⟨k, (hf.output_eq hw k).trans hk⟩

/-- The draw of the output 1 is 0 or 1, which is acceptable at every position (R134, R135). -/
theorem drawOf_one_le (bits b : Nat) : (drawOf bits b 1).toNat ≤ 1 := by
  rw [drawOf, BitVec.toNat_ushiftRight, Nat.shiftRight_eq_div_pow]
  exact Nat.div_le_self ..

theorem runSteps_inv {s t : State} {k : Nat} (hs : s.Inv) (h : runSteps k s = .next t) : t.Inv := by
  induction k generalizing s with
  | zero =>
    cases h
    exact hs
  | succ k ih =>
    obtain ⟨u, hstep, h⟩ := exists_step_of_runSteps_succ h
    exact ih (stepKeepsInvariant _ _ hs hstep) h

theorem Running.widthOk {v : Version} {s : State} (h : Running v s) (hs : s.Inv) : WidthOk v s := by
  obtain ⟨-, w, hw, hok⟩ := hs.controller h.busy
  obtain rfl : w = v := Option.some_injective _ (hw.symm.trans h.version)
  exact (controllerOk_iff.mp hok).1

/-- At every position the output 1 comes sooner or later, and so an accepted draw does. -/
theorem exists_rounds_to_end {v : Version} {c : State} (hc : AtLoop v c) (hinv : c.Inv) (hw : v.wrapped = false)
    (ha : v.raw = .lcg16 ∨ v.raw = .lcg26 ∨ v.raw = .lcg32 ∨ v.raw = .xs32) :
    ∃ m u, Rounds v c m u ∧ u.n.toNat ≤ u.j.toNat := by
  induction hleft : c.n.toNat - c.j.toNat generalizing c with
  | zero => exact ⟨0, c, .none c, by omega⟩
  | succ left ih =>
    have hlt : c.j.toNat < c.n.toNat := by omega
    obtain ⟨hlen, -, -, hlow, -⟩ := hc.widthOk hinv
    have hone : 1 ≤ c.j.toNat := (Nat.two_pow_pos _).trans_le hlow
    obtain ⟨-, -, hraw, -⟩ := hinv.generatorOk hc.configured hc.version
    obtain ⟨k, hk⟩ := exists_output_one hinv.config hraw hw ha
    obtain ⟨d, hd⟩ : ∃ d, FirstAccepted v c.j.toNat c.widened.b.toNat c.widened d := by
      refine exists_firstAccepted ⟨k, ?_⟩
      rw [drawWord_congr c.widened_registers, drawWord, hk]
      exact (drawOf_one_le _ _).trans hone
    have hnext := toNat_next_position hlt (hlen.trans v.nstates_le)
    obtain ⟨m, u, hrounds, hend⟩ := ih (hc.round d) (runSteps_inv hinv (runSteps_round hc hlt hd)) (by
      rw [State.round_n, State.round_j]
      omega)
    exact ⟨_, u, .next hlt hd hrounds, hend⟩

/-- Settles O41: there are rounds to the end of the sequence, and the answer is the last step. -/
theorem lcgAndXs32ShufflesEnd : Obligations.LcgAndXs32ShufflesEnd := by
  intro s v arg hs hh hc hv hw ha hle
  have hloop := startShuffle_atLoop (heldOff_of_nil hh) hc hv (arg.setWidth 33)
  have hinv : (s.startShuffle (arg.setWidth 33)).Inv := (ExecEffect.starts hc hv hle).inv hs
  obtain ⟨m, u, hrounds, hend⟩ := exists_rounds_to_end hloop hinv hw ha
  exact ⟨_, m + 1, _, execShuffle_ok hc hv hle, hrounds.runSteps_end hloop hend, rfl,
    congrArg (List.cons _) hrounds.responses_eq⟩

end Sys2Proof.Machine
end

section
/-! PROOFS of 43_dispatch.md. NOP (R168), the two errors of CONSTRUCT (R161 to R163) and the instance it makes (R160, R164,
R169), and the constants RDCFG returns (R30, R167). -/

namespace Sys2Proof.Machine

/-! ### CONSTRUCT (R160 to R164, R169) -/

/-- `seed_all` writes the state words, TAB and CUR, and nothing else (R83, R112). -/
theorem seedAll_frame (v : Version) (x : Word) (s : State) :
    seedAll v x s = { s with
      s0 := (seedAll v x s).s0, s1 := (seedAll v x s).s1, s2 := (seedAll v x s).s2, s3 := (seedAll v x s).s3
      tab := (seedAll v x s).tab, cur := (seedAll v x s).cur } := by
  -- reducibly, or the unifier unfolds `seedAll` to find the fields of its left side
  with_reducible refine (State.mk.injEq ..).mpr ?_
  simp

/-- Settles O11: CONSTRUCT and SEED run the same `seed_all` on the block with the new instance, and the frame is that of
`seed_all`. -/
theorem constructMakesSeededInstance : Obligations.ConstructMakesSeededInstance := by
  intro s ver arg v hv ha
  refine ⟨seedAll v (seedLow v arg) (s.setInstance ver), ?_, ?_, seedAll_frame v _ _, fun hw => ?_⟩
  · exact (execConstruct_ok hv ha s).trans (by simp [State.issue])
  · exact (execSeed_ok (s := s.setInstance ver) rfl hv ha).trans (by simp [State.issue])
  · simp [seedAll_unwrapped hw]

/-- Settles O13: `seed_all` leaves generators that agree on any two states with the same parameters. -/
theorem constructForgetsOldInstance : Obligations.ConstructForgetsOldInstance := by
  intro s s' ver arg v hconfig hv ha
  have hgen : SameGenerator v (seedAll v (seedLow v arg) (s.setInstance ver))
      (seedAll v (seedLow v arg) (s'.setInstance ver)) := sameGenerator_seedAll v _ hconfig
  exact ⟨_, _, execConstruct_ok hv ha s, execConstruct_ok hv ha s', seedAll_ver .., seedAll_ver ..,
    seedAll_configured .., seedAll_configured .., hgen.config, hgen.s0, hgen.rest, hgen.wrap⟩

/-- CONSTRUCT of a supported version with a negative seed (R162). -/
theorem execConstruct_negative {ver : BitVec 8} {arg : Arg} (hver : supported ver = true) (h : 2 ^ 63 ≤ arg.toNat)
    (s : State) : execConstruct ver arg s = raise .invalidSeed s := by
  obtain ⟨v, hv⟩ := Option.isSome_iff_exists.mp hver
  simp [execConstruct, hv, (seedNegative_iff arg).mpr h]

/-- Settles O12: each of the two tests ends the command with its error alone. -/
theorem constructErrorsChangeNothing : Obligations.ConstructErrorsChangeNothing :=
  fun s _ arg => ⟨fun h => execConstruct_unsupported h arg s, fun h ha => execConstruct_negative h ha s⟩

/-! ### NOP (R168) -/

/-- Settles O10: 0 is the word NOP encodes as, and its meaning is the response alone. -/
theorem nopAnswersOk : Obligations.NopAnswersOk :=
  ⟨decode_encode_cw (i := .nop) rfl, fun _ => rfl⟩

/-! ### RDCFG (R30, R167) -/

theorem statusWord_eq (s : State) :
    statusWord s = BitVec.ofNat 64 ((if s.configured then 1 else 0) +
      2 * (if s.configured && s.ver.getLsbD 4 then 1 else 0)) := by
  unfold statusWord decorrelationPresent bdField
  cases s.configured <;> cases s.ver.getLsbD 4 <;> rfl

/-- Selector 5 answers before the guard (R167). -/
theorem execRdcfg_status (s : State) : execRdcfg 5 s = respond .ok (statusWord s) s := rfl

/-- The selectors 0 to 4 stand behind the guard (R167, R185). -/
theorem execRdcfg_of_lt {sel : BitVec 8} (h : sel.toNat < 5) (s : State) :
    execRdcfg sel s = withVersion s fun v => respond .ok (configValue sel v s) s := by
  rw [execRdcfg, if_neg (by omega), if_neg (by omega)]

/-- Settles O14: STATUS answers at once, the other selectors behind the guard with the value of their row. -/
theorem rdcfgReturnsConstants : Obligations.RdcfgReturnsConstants := by
  refine ⟨fun s => ?_, fun s sel hsel hc => ?_, fun s v hc hv => ?_⟩
  · rw [← statusWord_eq]
    exact execRdcfg_status s
  · exact (execRdcfg_of_lt hsel s).trans (withVersion_unconfigured hc _)
  · have hread {sel : BitVec 8} {d : BitVec 64} (hsel : sel.toNat < 5) (hd : configValue sel v s = d) :
        exec (.rdcfg sel) s = respond .ok d s :=
      hd ▸ (execRdcfg_of_lt hsel s).trans (withVersion_some hc hv _)
    refine ⟨hread (by decide) ?_, hread (by decide) rfl, hread (by decide) rfl, hread (by decide) rfl,
      hread (by decide) ?_⟩
    · exact (BitVec.ofNat_toNat 64 s.ver).symm
    · rw [← bdField, ← versionOf_wrapped hv]
      rfl

end Sys2Proof.Machine
end
section
/-! PROOFS of 60_exceptions.md. The ways in which a command ends, with the cause of each error (R180 to R185), the order
in which errors are reported (R186), and that an error has no effect (R187, R188). -/

namespace Sys2Proof.Machine

/-! ### Without an instance (R185) -/

/-- Without an instance every command that needs one answers NotConstructed, whatever its operand. -/
theorem exec_unconfigured {i : Instr} {s : State} (hneed : NeedsInstance i) (hc : s.configured = false) :
    exec i s = raise .notConstructed s := by
  obtain ⟨arg, rfl⟩ | rfl | rfl | ⟨arg, rfl⟩ | ⟨sel, hsel, rfl⟩ := hneed
  · exact withVersion_unconfigured hc _
  · exact execNextRaw_unconfigured hc
  · exact execGet_unconfigured hc
  · exact withVersion_unconfigured hc _
  · exact (execRdcfg_of_lt (Nat.lt_succ_of_le hsel) s).trans (withVersion_unconfigured hc _)

/-! ### How a command ends (R180) -/

/-- The causes of the errors of a decoded command (R181 to R185). -/
inductive ErrorCause (s : State) : Instr → Error → Prop where
  /-- An RDCFG that no legal command word encodes (R69 (d)). -/
  | illegal {i : Instr} (h : i.wf = false) : ErrorCause s i .illegalCommand
  | unconstructed {i : Instr} (h : NeedsInstance i) (hc : s.configured = false) : ErrorCause s i .notConstructed
  | unsupported {ver : BitVec 8} {arg : Arg} (h : supported ver = false) :
      ErrorCause s (.construct ver arg) .unsupportedVersion
  | constructNegative {ver : BitVec 8} {arg : Arg} (h : seedValue arg < 0) :
      ErrorCause s (.construct ver arg) .invalidSeed
  | seedNegative {arg : Arg} (h : seedValue arg < 0) : ErrorCause s (.seed arg) .invalidSeed
  | tooLong {arg : Arg} {v : Version} (hv : versionOf s.ver = some v) (h : v.nstates < arg.toNat) :
      ErrorCause s (.shuffle arg) .sequenceTooLong

/-- How a command ends: with an error that has its cause, with OK, as a SHUFFLE that starts, or, where CONFIGURED stands
beside a VER that names no version, at the guard's fault (entry 12). -/
inductive Ends (s : State) (i : Instr) : Host.Outcome State Fault Refusal → Prop where
  | error {e : Error} (h : ErrorCause s i e) : Ends s i (.next (s.issue ⟨e.status, 0⟩))
  | ok {t : State} {d : BitVec 64} (h : t.responses = ⟨.ok, d⟩ :: s.responses) : Ends s i (.next t)
  | starts {arg : Arg} {n : BitVec 33} (h : i = .shuffle arg) : Ends s i (.next (s.startShuffle n))
  | noVersion (h : NeedsInstance i) (hc : s.configured = true) (hv : versionOf s.ver = none) :
      Ends s i (.fault .valuelessRead)

section
variable {s : State} {i : Instr}

theorem ends_respond {t : State} {d : BitVec 64} (h : t.responses = s.responses) : Ends s i (respond .ok d t) :=
  .ok (congrArg (_ :: ·) h)

/-- Behind the guard a command runs with an instance whose version VER names (R185). -/
theorem ends_withVersion {k : Version → Host.Outcome State Fault Refusal} (hneed : NeedsInstance i)
    (h : ∀ v, versionOf s.ver = some v → Ends s i (k v)) : Ends s i (withVersion s k) := by
  cases hc : s.configured with
  | false =>
    rw [withVersion_unconfigured hc]
    exact .error (.unconstructed hneed hc)
  | true =>
    cases hv : versionOf s.ver with
    | some v =>
      rw [withVersion_some hc hv]
      exact h v hv
    | none =>
      have hfault : withVersion s k = .fault .valuelessRead := by simp [withVersion, hc, hv]
      exact hfault ▸ .noVersion hneed hc hv

end

theorem seedValue_neg_iff (arg : Arg) : seedValue arg < 0 ↔ seedNegative arg = true :=
  (seedOperandIsSigned.2.1 arg).symm

theorem ends_construct (ver : BitVec 8) (arg : Arg) (s : State) :
    Ends s (.construct ver arg) (execConstruct ver arg s) := by
  unfold execConstruct
  split
  next hv => exact .error (.unsupported (by simp [supported, hv]))
  next =>
    split
    next hneg => exact .error (.constructNegative ((seedValue_neg_iff arg).mpr hneg))
    next => exact ends_respond (by simp)

theorem ends_seed (arg : Arg) (s : State) : Ends s (.seed arg) (execSeed arg s) :=
  ends_withVersion (.inl ⟨arg, rfl⟩) fun v _ => by
    split
    next hneg => exact .error (.seedNegative ((seedValue_neg_iff arg).mpr hneg))
    next => exact ends_respond (by simp)

theorem ends_shuffle (arg : Arg) (s : State) : Ends s (.shuffle arg) (execShuffle arg s) :=
  ends_withVersion (by simp [NeedsInstance]) fun v hv => by
    split
    next hlong => exact .error (.tooLong hv hlong)
    next => exact .starts rfl

theorem ends_rdcfg (sel : BitVec 8) (s : State) : Ends s (.rdcfg sel) (execRdcfg sel s) := by
  unfold execRdcfg
  split
  next => exact ends_respond rfl
  next =>
    split
    next hsel => exact .error (.illegal (by simpa [Instr.wf] using hsel))
    next =>
      have hneed : NeedsInstance (.rdcfg sel) := by
        simp [NeedsInstance]
        omega
      exact ends_withVersion hneed fun v _ => ends_respond rfl

theorem ends_exec (i : Instr) (s : State) : Ends s i (exec i s) := by
  cases i with
  | nop => exact ends_respond rfl
  | construct ver arg => exact ends_construct ver arg s
  | seed arg => exact ends_seed arg s
  | nextRaw => exact ends_withVersion (by simp [NeedsInstance]) fun v _ => ends_respond (by simp)
  | get => exact ends_withVersion (by simp [NeedsInstance]) fun v _ => ends_respond (by simp)
  | shuffle arg => exact ends_shuffle arg s
  | rdcfg sel => exact ends_rdcfg sel s

/-! ### Errors have no effect (R187, R188) -/

/-- A command that answers an error issues the response, whose data is 0, and does nothing else. -/
theorem Ends.error_eq_issue {i : Instr} {s t : State} {r : Response} (h : Ends s i (.next t))
    (hr : t.responses = r :: s.responses) (hst : r.status ≠ .ok) : r.rdata = 0 ∧ t = s.issue r := by
  cases h with
  | error =>
    obtain ⟨rfl, -⟩ := List.cons.inj hr
    exact ⟨rfl, rfl⟩
  | ok hok =>
    obtain ⟨rfl, -⟩ := List.cons.inj (hr.symm.trans hok)
    exact absurd rfl hst
  | starts => simp at hr

/-- Settles O43: an illegal word is answered at once, and of the ways in which a legal command ends only an error answers
with a status other than OK. -/
theorem errorsHaveNoEffect : Obligations.ErrorsHaveNoEffect := by
  intro c s t r h hr hst
  obtain ⟨i, -, h⟩ | ⟨e, -, rfl⟩ := acceptCommand_next h
  · exact (h ▸ ends_exec i s : Ends s i (.next t)).error_eq_issue hr hst
  · obtain ⟨rfl, -⟩ := List.cons.inj hr
    exact ⟨rfl, rfl⟩

/-! ### Which commands answer NotConstructed (R185) -/

/-- A command that needs no instance, so no SHUFFLE, always answers, and never NotConstructed. -/
theorem Ends.exists_answer {i : Instr} {s : State} {o : Host.Outcome State Fault Refusal} (h : Ends s i o)
    (hneed : ¬NeedsInstance i) :
    ∃ t r, o = .next t ∧ t.responses = r :: s.responses ∧ r.status ≠ .notConstructed := by
  cases h with
  | @error e hcause =>
    refine ⟨_, _, rfl, rfl, ?_⟩
    cases hcause with
    | unconstructed hi => exact absurd hi hneed
    | illegal | unsupported | constructNegative | seedNegative | tooLong => simp [Error.status]
  | ok hok => exact ⟨_, _, rfl, hok, by simp⟩
  | starts hi => exact absurd (by simp [NeedsInstance, hi]) hneed
  | noVersion hi => exact absurd hi hneed

/-- Settles O42: the guard stands before the five commands, and the other three are none that need an instance. -/
theorem notConstructedAnswered : Obligations.NotConstructedAnswered := by
  refine ⟨fun s hc i hneed => exec_unconfigured hneed hc, fun s i hi => (ends_exec i s).exists_answer ?_⟩
  obtain ⟨ver, arg, rfl⟩ | rfl | rfl := hi <;> simp [NeedsInstance]

/-! ### The order of errors (R186) -/

/-- A command whose errors have no cause answers OK, or starts a SHUFFLE, while CONFIGURED stands beside a version. -/
theorem Ends.exists_noError {i : Instr} {s : State} {o : Host.Outcome State Fault Refusal} (h : Ends s i o)
    (hcause : ∀ e, ¬ErrorCause s i e) (hver : s.configured = true → supported s.ver = true) :
    ∃ t, o = .next t ∧ (t.responses = s.responses ∨ ∃ d, t.responses = ⟨.ok, d⟩ :: s.responses) := by
  cases h with
  | error h => exact absurd h (hcause _)
  | ok hok => exact ⟨_, rfl, .inr ⟨_, hok⟩⟩
  | starts => exact ⟨_, rfl, .inl rfl⟩
  | noVersion _ hc hv => simp [supported, hv, hc] at hver

/-- The operand of a decoded SEED or CONSTRUCT is the one presented (R62). -/
theorem seedOperand_of_decode {c : Command} {arg : Arg}
    (h : decode c = .ok (.seed arg) ∨ ∃ ver, decode c = .ok (.construct ver arg)) : arg = c.arg := by
  obtain h | ⟨ver, h⟩ := h <;> obtain ⟨-, -, -, harg⟩ := encodeInvertsDecode c _ h
  · exact harg arg (.inl rfl)
  · exact harg arg (.inr (.inr ⟨ver, rfl⟩))

/-- Settles O44: each clause is the test it names, reached because the tests before it did not stop the command; a command
that no test stops has no cause of an error. -/
theorem firstErrorIsReported : Obligations.FirstErrorIsReported := by
  intro s c hver needs illegal notConstructed unsupported invalidSeed tooLong answers
  have hanswers {i : Instr} (e : Error) (hi : decode c = .ok i) (h : exec i s = raise e s) : answers e.status :=
    (acceptCommand_ok hi s).trans h
  have hinstance {i : Instr} (hi : decode c = .ok i) (hneed : needs i) (hnot : ¬notConstructed) :
      s.configured = true ∧ ∃ v, versionOf s.ver = some v := by
    have hc : s.configured = true := by
      by_contra hc
      exact hnot ⟨by simpa using hc, i, hi, hneed⟩
    exact ⟨hc, Option.isSome_iff_exists.mp (hver hc)⟩
  refine ⟨?illegal, ?notConstructed, ?unsupported, ?invalidSeed, ?tooLong, ?noError⟩
  case illegal =>
    rintro ⟨e, he⟩
    exact acceptCommand_error he s
  case notConstructed =>
    rintro - ⟨hc, i, hi, hneed⟩
    exact hanswers .notConstructed hi (exec_unconfigured hneed hc)
  case unsupported =>
    rintro - - ⟨ver, arg, hi, hunsup⟩
    exact hanswers .unsupportedVersion hi (execConstruct_unsupported hunsup arg s)
  case invalidSeed =>
    rintro - hnot hsup ⟨hneg, arg, hi⟩
    obtain rfl := seedOperand_of_decode hi
    rw [seedValue_neg_iff] at hneg
    obtain hi | ⟨ver, hi⟩ := hi
    · obtain ⟨hc, v, hv⟩ := hinstance hi (.inl ⟨_, rfl⟩) hnot
      exact hanswers .invalidSeed hi ((seedErrorsChangeNothing.2 s _ v hc hv).1 hneg)
    · have hsupported : supported ver = true := by
        by_contra h
        exact hsup ⟨ver, _, hi, by simpa using h⟩
      exact hanswers .invalidSeed hi (execConstruct_negative hsupported ((seedNegative_iff _).mp hneg) s)
  case tooLong =>
    rintro - hnot - - ⟨arg, v, hi, hv, hlong⟩
    obtain ⟨hc, -⟩ := hinstance hi (.inr (.inr (.inr (.inl ⟨arg, rfl⟩)))) hnot
    exact hanswers .sequenceTooLong hi ((shuffleGuardsLengthAndStarts s arg v hc hv).1 hlong)
  case noError =>
    intro hlegal hnot hsup hpos hfits
    cases hi : decode c with
    | error e => exact absurd ⟨e, hi⟩ hlegal
    | ok i =>
      rw [acceptCommand_ok hi s]
      refine (ends_exec i s).exists_noError (fun e hcause => ?_) hver
      cases hcause with
      | illegal h => simp [(encode_cw_of_decode hi).1] at h
      | unconstructed hneed hc => exact hnot ⟨hc, i, hi, hneed⟩
      | unsupported h => exact hsup ⟨_, _, hi, h⟩
      | constructNegative h => exact hpos ⟨seedOperand_of_decode (.inr ⟨_, hi⟩) ▸ h, _, .inr ⟨_, hi⟩⟩
      | seedNegative h => exact hpos ⟨seedOperand_of_decode (.inl hi) ▸ h, _, .inl hi⟩
      | tooLong hv h => exact hfits ⟨_, _, hi, hv, h⟩

end Sys2Proof.Machine
end

section
/-! PROOFS of 70_reset_and_hazards.md. What the block does on its own and while the host is held off (R196, R205, R206), and
reset as the next move (R200 to R202). -/

namespace Sys2Proof.Machine

/-! ### The block on its own, and the host held off (R196, R205, R206) -/

theorem blockStep_free {s : State} (hb : s.busy = false) : blockStep s = .next s := by
  simp [blockStep, hb]

theorem blockStep_busy {s : State} (hb : s.busy = true) : blockStep s = controllerStep s := by
  simp [blockStep, hb]

/-- With no move of the host the step is the block's own (R196). -/
theorem step_noMove {s : State} (hh : s.host = []) : step s = blockStep s := by
  simp [step, hostStep, hh]

/-- A wait leaves the step to the block, too (R196). -/
theorem step_wait {s : State} {rest : List HostMove} (hh : s.host = .wait :: rest) :
    step s = blockStep (s.setHost rest) := by
  simp [step, hostStep, hh]

/-- Settles O46: with no move or a wait the step is the block's own; a move held off leaves it to the controller, whose
phases do not reach the host's moves. -/
theorem hostIsHeldOffWhileBusy : Obligations.HostIsHeldOffWhileBusy := by
  refine ⟨fun s hb hh => (step_noMove hh).trans (blockStep_free hb),
    fun s rest hb hh => (step_wait hh).trans (blockStep_free (s := s.setHost rest) hb),
    fun s hb hh => (step_noMove hh).trans (blockStep_busy hb),
    fun s rest hb hh => (step_wait hh).trans (blockStep_busy (s := s.setHost rest) hb),
    fun s m rest hb hh hwait hreset => ?_⟩
  have hheld : HostHeldOff s.host := by simp [HostHeldOff, hh, hwait, hreset]
  have hstep : step s = controllerStep s := step_heldOff hb hheld
  exact ⟨hstep, fun t ht => (controllerStep_responses (hstep ▸ ht)).1.trans hh⟩

/-! ### Reset (R200 to R202) -/

@[simp] theorem applyReset_config (s : State) : (applyReset s).config = s.config := rfl
@[simp] theorem applyReset_configured (s : State) : (applyReset s).configured = false := rfl
@[simp] theorem applyReset_busy (s : State) : (applyReset s).busy = false := rfl
@[simp] theorem applyReset_host (s : State) : (applyReset s).host = s.host := rfl
@[simp] theorem applyReset_responses (s : State) : (applyReset s).responses = s.responses := rfl

/-- Reset as the next move is made in that step, in any state (R200). -/
theorem step_reset {s : State} {rest : List HostMove} (hh : s.host = .reset :: rest) :
    step s = .next (applyReset (s.setHost rest)) := by
  simp [step, hostStep, hh]

/-- Settles O55: the step is the reset itself, which keeps the parameters, SEQ and the responses (R201, R202). -/
theorem resetAbandonsCommand : Obligations.ResetAbandonsCommand :=
  fun _ _ hh => ⟨_, step_reset hh, by simp [applyReset_seq]⟩

end Sys2Proof.Machine
end

section
/-! PROOFS of the words written out in 30_encoding.md section 7 and 95_test_vectors.md section 3.1 (R61, R64, R69). -/

namespace Sys2Proof.Machine

/-- Settles O6: each legal word is the word of its command, which decodes with the operand beside it; the last has a
reserved bit set. -/
theorem writtenOutWordsDecode : Obligations.WrittenOutWordsDecode :=
  ⟨decode_encode_cw (i := .construct 0x0A 42) rfl 42,
    decode_encode_cw (i := .seed (-1)) rfl (-1),
    decode_encode_cw (i := .nextRaw) rfl 0,
    decode_encode_cw (i := .get) rfl 0,
    decode_encode_cw (i := .shuffle 4294967297) rfl 4294967297,
    decode_encode_cw (i := .rdcfg 2) rfl 0,
    decode_encode_cw (i := .nop) rfl 0,
    decode_reserved (by decide)⟩

end Sys2Proof.Machine
end
